-- ==== Sys2Proof/Word.lean ====
section
/-! DEFINITION. The word types of the block: the byte of the non-volatile store, the command word, the 16-bit
duration and the two-bit button set (R6, R26, R50, R70). Everything else that computes stands in Machine/. -/

namespace Sys2Proof

/-- One byte of the non-volatile store (R50). -/
abbrev Byte := BitVec 8

/-- The 32-bit word the host hands over per operation (R70). -/
abbrev CommandWord := BitVec 32

/-- A duration or time in seconds, unsigned (R74). -/
abbrev Seconds := BitVec 16

/-- A set of the two buttons: bit 0 Start, bit 1 Mode, 1 = in the set (R26). -/
abbrev Buttons := BitVec 2

end Sys2Proof
end

