-- ==== Sys2Proof/Syntax.lean ====
section
/-! DEFINITION. The operation set: one constructor per row of spec/opcode_table.json (R72), with the operands of R74,
and the three Modes (R136). -/

namespace Sys2Proof

/-- Which UV sources an exposure lights, in the order the source lists them (R136). -/
inductive Mode where
  | top
  | bottom
  | both
  deriving DecidableEq, Repr, Inhabited

/-- The seven operations (R72). `TICK` and reset are no operations (R73). `showMode` is the row SHOW: the word show is
Lean's own. Its operand stays the two-bit field, because the operation itself tests it (R135). -/
inductive Instr where
  /-- NOW (R93). -/
  | now
  /-- POLL (R100). -/
  | poll
  /-- REFRESH time, dots, mask (R110). -/
  | refresh (time : Seconds) (dots : BitVec 8) (mask : BitVec 3)
  /-- LOAD (R125). -/
  | load
  /-- SAVE dur (R127). -/
  | save (dur : Seconds)
  /-- SHOW sel (R135). -/
  | showMode (sel : BitVec 2)
  /-- CHAN sel (R137). -/
  | chan (sel : BitVec 2)
  deriving DecidableEq, Repr, Inhabited

end Sys2Proof
end

