-- ==== Sys2Proof/Config.lean ====
section
/-! DEFINITION. What an implementation fixes (the parameter table of R5) and the free values: the constants without a body
that stand for what the spec leaves open (R13 (6)). -/

namespace Sys2Proof

/-- `NV_ENDIAN`: the byte order of the stored value (R54). -/
inductive Endian where
  | little
  | big
  deriving DecidableEq, Repr, Inhabited

/-- The implementation parameters of R5, host parameters included. `none` in `tickUs` and `idleDots` is the table's own
"none": the parameter is OPEN, no value is normative, and the machine then uses the free value of the same purpose below.
`MAX_DURATION` is fixed by the source and is `maxDuration`. -/
structure Config where
  /-- `W`: width in bits of `MS`. -/
  w : Nat
  /-- `TICK_US`: period of the timer interrupt in microsecond-units; OPEN (D7). -/
  tickUs : Option Nat
  /-- `DEBOUNCE_MS`. -/
  debounceMs : Nat
  /-- `DEFAULT_DURATION`. -/
  defaultDuration : Seconds
  /-- `NV_ADDR`. -/
  nvAddr : Nat
  /-- `NV_SIZE`. -/
  nvSize : Nat
  /-- `NV_ENDIAN`. -/
  nvEndian : Endian
  /-- `SEG_LEVELS`: the segment-line levels of each decimal digit (R116). -/
  segLevels : Vector (BitVec 7) 10
  /-- `DOT_SENTINEL`. -/
  dotSentinel : BitVec 8
  /-- `START_HOLD` (host). -/
  startHold : Nat
  /-- `MODE_HOLD` (host). -/
  modeHold : Nat
  /-- `SEC_STEP` (host). -/
  secStep : Nat
  /-- `BLINK_HALF` (host). -/
  blinkHalf : Nat
  /-- `BLINK_MOD` (host). -/
  blinkMod : Nat
  /-- `IDLE_DOTS` (host); OPEN (D37). -/
  idleDots : Option (BitVec 8)
  deriving DecidableEq, Repr

/-- `MAX_DURATION`: the largest valid exposure duration in seconds (R5, fixed by the source). -/
def maxDuration : Nat := 599

/-- The default table `SEG_LEVELS` of R116: bit 0 is segment a up to bit 6 segment g, a bit at 0 meaning lit. -/
def defaultSegLevels : Vector (BitVec 7) 10 :=
  #v[0b1000000#7, 0b1111001#7, 0b0100100#7, 0b0110000#7, 0b0011001#7,
     0b0010010#7, 0b0000010#7, 0b1111000#7, 0b0000000#7, 0b0010000#7]

/-- The parameter record with every default of R5, and the OPEN parameters left open. -/
def Config.default : Config where
  w := 32
  tickUs := none
  debounceMs := 5
  defaultDuration := 30#16
  nvAddr := 0
  nvSize := 2
  nvEndian := .little
  segLevels := defaultSegLevels
  dotSentinel := 0xFF#8
  startHold := 500
  modeHold := 1500
  secStep := 5
  blinkHalf := 256
  blinkMod := 512
  idleDots := none

/-- The constraints of R5's table. `0 < blinkMod` is R7's remark that the divisor `BLINK_MOD` is not zero. -/
abbrev Config.Valid (c : Config) : Prop :=
  20 ≤ c.w ∧ (∀ us ∈ c.tickUs, 1 ≤ us ∧ us ≤ 999) ∧ (1 ≤ c.debounceMs ∧ c.debounceMs < 2 ^ c.w) ∧
  c.defaultDuration.toNat ≤ maxDuration ∧ c.nvAddr + 1 < c.nvSize ∧
  c.blinkMod = 2 * c.blinkHalf ∧ 0 < c.blinkMod

/-- The levels of the two input pins, 1 = released, 0 = pressed (R30). -/
structure Pins where
  /-- Level of `PIN_START`. -/
  start : BitVec 1
  /-- Level of `PIN_MODE`. -/
  mode : BitVec 1
  deriving DecidableEq, Repr, Inhabited

/-- Which agent of R13 (1) performs the next step. -/
inductive Turn where
  /-- `TIMER`: the timer overflows (R90, R183). -/
  | timer
  /-- `HOST`: the host performs its next operation (R13). -/
  | host
  /-- `ENV`: the environment presents these pin levels from here on (a PINS line, R81), or, with `none`, goes back to
  presenting any levels at each sample (R105). -/
  | env (levels : Option Pins)
  /-- `POWER`: a power cycle, the reset step of R205. -/
  | power
  deriving DecidableEq, Repr, Inhabited

/-- FREE VALUE (U1, D7): the open timer period less one, so that the period is in `1 .. 999` whatever this is. -/
opaque Config.openPeriod : Fin 999

/-- FREE VALUE (U13, D37): the open parameter `IDLE_DOTS`. -/
opaque Config.openIdleDots : BitVec 8

/-- FREE VALUE (U9, D27): what the byte of the store at an offset held before anything was ever saved there. -/
opaque Config.factoryByte : Nat → Byte

/-- FREE VALUE (U8, D14): the pin levels of the n-th draw, where the environment is held to no levels. -/
opaque Config.pinLevels : Nat → Pins

/-- FREE VALUE (U10, D43): which agent moves at the n-th draw, where no order of turns is laid down. -/
opaque Config.freeTurn : Nat → Turn

end Sys2Proof
end

