-- ==== Sys2Proof/WellFormed.lean ====
section
/-! DEFINITION. Which instruction terms some command word spells (R78, R79): all of them but SHOW with `sel = 3`. -/

namespace Sys2Proof

/-- The one operand value of the table's rows that names nothing: `sel = 3` of SHOW (R74, R78, R136). -/
def Instr.wellFormed : Instr → Bool
  | .showMode sel => sel != 3#2
  | .now => true
  | .poll => true
  | .refresh _ _ _ => true
  | .load => true
  | .save _ => true
  | .chan _ => true

end Sys2Proof
end

