-- ==== Sys2Proof/Decode.lean ====
section
/-! DEFINITION. The command encoding of 30_encoding.md: the formats and fields of R71, the opcode map of R72, the decoder
with the refusals of R78 in their order, the encoder, and the pseudo-operations of R82. -/

namespace Sys2Proof

/-- The three reasons of R78 why a word spells no operation. -/
inductive DecodeError where
  | reservedOpcode
  | reservedBits
  | reservedMode
  deriving DecidableEq, Repr

/-- The seven mnemonics of the opcode map (R72). -/
inductive Opcode where
  | now | poll | refresh | load | save | showMode | chan
  deriving DecidableEq, Repr

/-- The four formats (R71). -/
inductive Format where
  | n | r | s | m
  deriving DecidableEq, Repr

/-- The field `op`, bits 31:28 (R71). -/
def opField (w : CommandWord) : BitVec 4 := w.extractLsb' 28 4
/-- `mask` of format R, bits 26:24 (R71). -/
def maskField (w : CommandWord) : BitVec 3 := w.extractLsb' 24 3
/-- `dots` of format R, bits 23:16 (R71). -/
def dotsField (w : CommandWord) : BitVec 8 := w.extractLsb' 16 8
/-- `time` of format R and `dur` of format S, bits 15:0 (R71). -/
def secondsField (w : CommandWord) : Seconds := w.extractLsb' 0 16
/-- `sel` of format M, bits 1:0 (R71). -/
def selField (w : CommandWord) : BitVec 2 := w.extractLsb' 0 2

/-- The opcode map (R72): `0x0` and `0x8` to `0xF` are reserved. -/
def opcodeOf (b : BitVec 4) : Option Opcode :=
  match b with
  | 0x1#4 => some .now
  | 0x2#4 => some .poll
  | 0x3#4 => some .refresh
  | 0x4#4 => some .load
  | 0x5#4 => some .save
  | 0x6#4 => some .showMode
  | 0x7#4 => some .chan
  | _ => none

/-- The column Format of the opcode map (R72). -/
def formatOf : Opcode → Format
  | .now => .n
  | .poll => .n
  | .refresh => .r
  | .load => .n
  | .save => .s
  | .showMode => .m
  | .chan => .m

/-- The field marked "zero" of the format is all zeros (R71). -/
def zeroFieldClear (f : Format) (w : CommandWord) : Bool :=
  match f with
  | .n => w.extractLsb' 0 28 == 0#28
  | .r => w.extractLsb' 27 1 == 0#1
  | .s => w.extractLsb' 16 12 == 0#12
  | .m => w.extractLsb' 2 26 == 0#26

/-- The operation of an opcode with the operands of its format (R74); SHOW is refused for `sel = 3` (R78). -/
def operandsOf (o : Opcode) (w : CommandWord) : Except DecodeError Instr :=
  match o with
  | .now => .ok .now
  | .poll => .ok .poll
  | .refresh => .ok (.refresh (secondsField w) (dotsField w) (maskField w))
  | .load => .ok .load
  | .save => .ok (.save (secondsField w))
  | .showMode => if selField w = 3#2 then .error .reservedMode else .ok (.showMode (selField w))
  | .chan => .ok (.chan (selField w))

/-- What a command word spells (R70 to R74), the tests of R78 in the order that rule gives. -/
def decode (w : CommandWord) : Except DecodeError Instr :=
  match opcodeOf (opField w) with
  | none => .error .reservedOpcode
  | some o => if zeroFieldClear (formatOf o) w then operandsOf o w else .error .reservedBits

/-- The command word of an operation (R71, R72). -/
def encode : Instr → CommandWord
  | .now => 0x1#4 ++ 0#28
  | .poll => 0x2#4 ++ 0#28
  | .refresh time dots mask => 0x3#4 ++ 0#1 ++ mask ++ dots ++ time
  | .load => 0x4#4 ++ 0#28
  | .save dur => 0x5#4 ++ 0#12 ++ dur
  | .showMode sel => 0x6#4 ++ 0#26 ++ sel
  | .chan sel => 0x7#4 ++ 0#26 ++ sel

/-- What the decoder reads from a word given as a number, of which the table gives the low `nbits` bits. -/
def decodeTableWord (nbits w : Nat) : Option Instr :=
  match decode (BitVec.ofNat 32 (w % 2 ^ nbits)) with
  | .ok i => some i
  | .error _ => none

/-- The number of a Mode (R136). -/
def modeNumber : Mode → BitVec 2
  | .top => 0#2
  | .bottom => 1#2
  | .both => 2#2

/-- Pseudo-operation `BLANK time, dots` (R82). -/
def blankOp (time : Seconds) (dots : BitVec 8) : Instr := .refresh time dots 0b000#3

/-- Pseudo-operation `UVOFF` (R82). -/
def uvOffOp : Instr := .chan 0b00#2

/-- Pseudo-operation `EXPOSE m` (R82, R138). -/
def exposeOp : Mode → Instr
  | .top => .chan 0b01#2
  | .bottom => .chan 0b10#2
  | .both => .chan 0b11#2

end Sys2Proof
end

