-- ==== Sys2Proof/Machine/State.lean ====
section
/-! DEFINITION. The machine's state as plain data: the registers of R20, the non-volatile store, the command port, what the
environment and the agents hold, the reference host's variables (R145), and the reset state (R20, R205). -/

namespace Sys2Proof.Machine

/-- Why a step stops with a fault. The block itself has none (R11, R180): both are ends the spec draws around the model. -/
inductive Fault where
  /-- Raised by LOAD and SAVE when `NV_ADDR` or `NV_ADDR + 1` is no offset of the store, which `NV_ADDR + 1 < NV_SIZE` (R5,
  R53) rules out. Safe: no machine the spec admits gets here. -/
  | nvAbsent
  /-- Raised by a turn of the host when its command list is used up: "a list's end is the end of the run" (R24). Safe: the
  run has no further step. -/
  | endOfRun
  deriving DecidableEq, Repr

/-- Why a word or an operation has no meaning (R11, R78). -/
inductive Refusal where
  /-- Raised by an arm of `exec` whose instruction has no meaning yet. Safe. -/
  | notModelled (mnemonic : String)
  /-- `refuse(ReservedOpcode)`, raised by the command port (R78). Safe: the run stops. -/
  | reservedOpcode
  /-- `refuse(ReservedBits)`, raised by the command port (R78). Safe: the run stops. -/
  | reservedBits
  /-- `refuse(ReservedMode)`, raised by the command port and by SHOW (R78, R135). Safe: the run stops. -/
  | reservedMode
  deriving DecidableEq, Repr

/-- The non-volatile store as (offset, byte) pairs, offsets strictly rising. An offset that is not listed has not been saved
to since the factory: it reads as the free value `Config.factoryByte` (R37, D27). -/
abbrev Memory := List Host.Cell

/-- The result of an operation (R83). -/
inductive Result where
  /-- of NOW: milliseconds, `W` bits -/
  | millis (ms : Nat)
  /-- of POLL: released, pressed, current, two bits each from the top -/
  | buttons (r : BitVec 6)
  /-- of LOAD: seconds -/
  | duration (d : Seconds)
  deriving DecidableEq, Repr

/-- The control state `ctl` of the reference host (R145, R146). -/
inductive Ctl where
  | idle
  | setupMin
  | setupSec
  | exposure
  deriving DecidableEq, Repr, Inhabited

/-- What the reference host still has to do before its next loop iteration, one entry per turn of the host. Each entry issues
at most one operation of the block. -/
inductive HostAct where
  /-- boot: `duration = LOAD` (R147) -/
  | load
  /-- boot: `mode = Top`, `SHOW mode`, counters and blink to 0, `ctl <- Idle` (R147) -/
  | start
  /-- `SHOW mode` (R155) -/
  | indicate
  /-- one `POLL` of a drain; a drain that ends goes on into the control state given, if any (R151) -/
  | drain (into : Option Ctl)
  /-- `entry = NOW` (R165) -/
  | stamp
  /-- `CHAN` with the pattern of `mode`, then `ctl <- Exposure` (R153, R165) -/
  | lampsOn
  /-- `CHAN 0b00` (R168, R171) -/
  | lampsOff
  /-- `now = NOW` and the logic of one Exposure iteration, with the button state its `POLL` gave (R166 to R171) -/
  | countdown (cur : Buttons)
  /-- `SAVE duration` (R162) -/
  | commit
  /-- parts (4) and (5) of an iteration: `REFRESH`, then the blink counter (R148) -/
  | refresh (time : Seconds) (dots : BitVec 8) (mask : BitVec 3)
  /-- part (6) of an iteration, and the pause of a drain: `DELAY` (R149, R151) -/
  | delay
  deriving DecidableEq, Repr

/-- The variables of the reference host (R145), and `todo`, its place inside a loop iteration: when it is empty, the next turn
of the host begins an iteration with its `POLL`. -/
structure MainCtl where
  ctl : Ctl
  mode : Mode
  duration : Seconds
  minutes : Nat
  seconds : Nat
  startHold : Nat
  modeHold : Nat
  blink : Nat
  entry : Nat
  todo : List HostAct
  deriving DecidableEq, Repr

/-- The reference host at power-on: its boot sequence lies ahead (R147). DESIGN CHOICE (log entry 20), unsafe: the spec gives no
variable of the host a value before the boot or a transition writes it, and the model holds Idle, Top and 0 in all of them. -/
def MainCtl.boot : MainCtl where
  ctl := .idle
  mode := .top
  duration := 0#16
  minutes := 0
  seconds := 0
  startHold := 0
  modeHold := 0
  blink := 0
  entry := 0
  todo := [.load, .start]

/-- Who sits at the command port: a command list (R24), or the reference host of 46_main_controller.md. -/
inductive Driver where
  | commandList
  | mainController
  deriving DecidableEq, Repr

/-- The state of the machine. -/
structure State where
  /-- the implementation parameters (R5); no step writes them -/
  cfg : Config
  /-- `MS` (R21), below `2^W` -/
  ms : Nat
  /-- `FRACT` (R22), at most 999 between steps -/
  fract : Nat
  /-- `IE` (R25) -/
  ie : Bool
  /-- `TICK_PEND` (R25) -/
  tickPend : Bool
  /-- `BTN_CUR` (R26) -/
  btnCur : Buttons
  /-- `BTN_PREV` (R27) -/
  btnPrev : Buttons
  /-- `BTN_T` (R28), below `2^W` -/
  btnT : Nat
  /-- `CURSOR` (R31) -/
  cursor : Fin 3
  /-- `DIGEN` (R32) -/
  digen : BitVec 3
  /-- `SEG` (R33) -/
  seg : BitVec 7
  /-- `DOT` (R34) -/
  dot : BitVec 1
  /-- `LED` (R35) -/
  led : BitVec 2
  /-- `UV` (R36) -/
  uv : BitVec 2
  /-- `NV`, the non-volatile store (R37, R50) -/
  nv : Memory
  /-- the command port's answer to the latest operation; `none` when it returned nothing (R70, R83) -/
  result : Option Result
  /-- the levels the environment presents on the input pins (R30); `none`: any levels at each sample (R105) -/
  pins : Option Pins
  /-- the turns laid down for the steps to come, next one first (R58, R81); empty: the free value `Config.freeTurn` decides -/
  sched : List Turn
  /-- how many free values have been drawn -/
  draws : Nat
  /-- which host issues the operations -/
  driver : Driver
  /-- the rest of the host's command list (R24, R70) -/
  cmds : List CommandWord
  /-- the reference host (R145) -/
  main : MainCtl
  deriving DecidableEq, Repr

/-- The machine right after the reset step (R20, R205): every register at its reset value, nothing saved since the factory,
no command handed over, no turn laid down, the parameters at R5's defaults. -/
def State.reset : State where
  cfg := Config.default
  ms := 0
  fract := 0
  ie := true
  tickPend := false
  btnCur := 0b00#2
  btnPrev := 0b00#2
  btnT := 0
  cursor := 0
  digen := 0b000#3
  seg := 0b1111111#7
  dot := 0#1
  led := 0b00#2
  uv := 0b00#2
  nv := []
  result := none
  pins := none
  sched := []
  draws := 0
  driver := .commandList
  cmds := []
  main := MainCtl.boot

end Sys2Proof.Machine
end

