-- ==== Sys2Proof/Machine/Ops.lean ====
section
/-! DEFINITION. The named operations over the registers, the store, the pins and the clock that the meanings share, among them
the one interrupt of the block (R183 to R187). -/

namespace Sys2Proof.Machine

/-! ### Arithmetic modulo `2^W` (R7) -/

/-- `a +_W b` (R7). -/
def addW (w a b : Nat) : Nat := (a + b) % 2 ^ w

/-- `a -_W b` (R7), exact on the integers before the reduction. -/
def subW (w a b : Nat) : Nat := (((a : Int) - (b : Int)) % (2 ^ w : Nat)).toNat

/-! ### Register writes -/

/-- The operation completes with this answer at the command port (R83). -/
def State.answer (s : State) (r : Option Result) : State := { s with result := r }

/-- `IE <- b` (R25). -/
def State.setIe (s : State) (b : Bool) : State := { s with ie := b }

/-- `TICK_PEND <- b` (R25). -/
def State.setTickPend (s : State) (b : Bool) : State := { s with tickPend := b }

/-- `MS <- ms`, `FRACT <- fract` (R90). -/
def State.setClock (s : State) (ms fract : Nat) : State := { s with ms := ms, fract := fract }

/-- `BTN_CUR <- cur`, `BTN_PREV <- prev` (R100). -/
def State.setButtons (s : State) (cur prev : Buttons) : State := { s with btnCur := cur, btnPrev := prev }

/-- `BTN_T <- t` (R100). -/
def State.setBtnT (s : State) (t : Nat) : State := { s with btnT := t }

/-- `SEG`, `DIGEN`, `DOT` and `CURSOR` written together (R110, R120). -/
def State.setFrame (s : State) (seg : BitVec 7) (digen : BitVec 3) (dot : BitVec 1) (cursor : Fin 3) : State :=
  { s with seg := seg, digen := digen, dot := dot, cursor := cursor }

/-- `LED <- v` (R135). -/
def State.setLed (s : State) (v : BitVec 2) : State := { s with led := v }

/-- `UV <- v` (R137). -/
def State.setUv (s : State) (v : BitVec 2) : State := { s with uv := v }

/-- The store's contents replaced (R54). -/
def State.setNv (s : State) (m : Memory) : State := { s with nv := m }

/-- The environment's levels replaced (R30). -/
def State.setPins (s : State) (p : Option Pins) : State := { s with pins := p }

/-- The order of turns replaced (R58). -/
def State.setSched (s : State) (ts : List Turn) : State := { s with sched := ts }

/-- The rest of the command list replaced (R24). -/
def State.setCmds (s : State) (ws : List CommandWord) : State := { s with cmds := ws }

/-- One free value has been drawn. -/
def State.drawn (s : State) : State := { s with draws := s.draws + 1 }

/-- The reference host's variables replaced (R145). -/
def State.setMain (s : State) (m : MainCtl) : State := { s with main := m }

/-! ### The atomic clock read (R25, R61, R93) -/

/-- `r = MS` with the timer interrupt suppressed around the read: `IE <- 0`, the read, `IE <- 1` (R93). -/
def State.readClock (s : State) : Nat × State :=
  let s0 := s.setIe false
  let r := s0.ms
  (r, s0.setIe true)

/-! ### The input pins (R10, R30, R105) -/

/-- Both pins in one snapshot (R105): the levels the environment has laid down, or a fresh free value. -/
def State.pinRead (s : State) : Pins × State :=
  match s.pins with
  | some p => (p, s)
  | none => (Config.pinLevels s.draws, s.drawn)

/-! ### The non-volatile store (R9, R50 to R56) -/

/-- The byte at an offset: what was saved there, else the factory's (R37). -/
def Memory.read : Memory → Nat → Byte
  | [], a => Config.factoryByte a
  | c :: m, a => if a = c.1 then c.2 else Memory.read m a

/-- One byte stored; the list stays strictly rising. -/
def Memory.write : Memory → Nat → Byte → Memory
  | [], a, b => [(a, b)]
  | c :: m, a, b =>
      if a < c.1 then (a, b) :: c :: m
      else if a = c.1 then (a, b) :: m
      else c :: Memory.write m a b

/-- The one canonical form: offsets strictly rising. -/
abbrev Memory.wf (m : Memory) : Prop := m.Pairwise (fun c d => c.1 < d.1)

/-- `MemRead(a, n)` (R9): the bytes at offsets `a .. a + n - 1`, lowest first; `none` beyond `NV_SIZE`. -/
def State.memRead (s : State) (a n : Nat) : Option (List Byte) :=
  if a + n ≤ s.cfg.nvSize then some ((List.range n).map fun k => s.nv.read (a + k)) else none

/-- Bytes stored from an offset upwards. -/
def Memory.writeBytes : Memory → Nat → List Byte → Memory
  | m, _, [] => m
  | m, a, b :: bs => Memory.writeBytes (m.write a b) (a + 1) bs

/-- `MemWrite(a, n, bytes)` (R9); `none` beyond `NV_SIZE`. -/
def State.memWrite (s : State) (a : Nat) (bytes : List Byte) : Option State :=
  if a + bytes.length ≤ s.cfg.nvSize then some (s.setNv (s.nv.writeBytes a bytes)) else none

/-- The 16-bit value of two bytes, lowest offset first (R54). -/
def assemble (e : Endian) (b0 b1 : Byte) : Seconds :=
  match e with
  | .little => b1 ++ b0
  | .big => b0 ++ b1

/-- The two bytes of a 16-bit value, lowest offset first (R54). -/
def split (e : Endian) (v : Seconds) : List Byte :=
  match e with
  | .little => [v.extractLsb' 0 8, v.extractLsb' 8 8]
  | .big => [v.extractLsb' 8 8, v.extractLsb' 0 8]

/-- `NVRead16()` (R54). -/
def State.nvRead16 (s : State) : Option Seconds :=
  match s.memRead s.cfg.nvAddr 2 with
  | some [b0, b1] => some (assemble s.cfg.nvEndian b0 b1)
  | _ => none

/-- `NVWrite16(v)` (R54). -/
def State.nvWrite16 (s : State) (v : Seconds) : Option State :=
  s.memWrite s.cfg.nvAddr (split s.cfg.nvEndian v)

/-! ### The timer interrupt (R90, R183 to R187)

Its entry is the `TICK` step and nothing else: it saves no block state, changes no mode and reads no vector (R186). Its return
has nothing to restore (R187), so there is no second operation for it. -/

/-- The carry loop of R90 on `f` and `m`, at most `n` times round. -/
def carryLoop (w : Nat) : Nat → Nat → Nat → Nat × Nat
  | 0, f, m => (f, m)
  | n + 1, f, m => if 1000 ≤ f then carryLoop w n (f - 1000) (addW w m 1) else (f, m)

/-- `TICK_US`: the period the parameter record names, else the open one (R5, D7). -/
def tickPeriod (c : Config) : Nat :=
  match c.tickUs with
  | some us => us
  | none => Config.openPeriod.val + 1

/-- The `TICK` step (R90). The loop takes 1000 off `f` each time round, so `f` rounds are enough. -/
def State.tick (s : State) : State :=
  let f := s.fract + tickPeriod s.cfg
  let r := carryLoop s.cfg.w f f s.ms
  s.setClock r.2 r.1

/-- One overflow of the timer: delivered as a `TICK` step at once when `IE = 1`, else held pending, one deep (R25, R184). -/
def State.timerOverflow (s : State) : State :=
  if s.ie then s.tick else s.setTickPend true

/-- A held overflow waits and `IE` is back at 1 (R25). -/
def State.tickHeld (s : State) : Bool := s.ie && s.tickPend

/-- The held overflow is delivered as a `TICK` step, which clears the pending state (R25, R184). -/
def State.deliverHeld (s : State) : State := (s.setTickPend false).tick

/-! ### Reset (R205, R206) -/

/-- A power cycle: every register of R20 to its reset value, `NV` kept (R205, R194), the command port's answer gone and the
reference host at its boot. What is not the block's (parameters, environment, order of turns, command list) stays. -/
def State.powerCycle (s : State) : State :=
  { State.reset with
    cfg := s.cfg, nv := s.nv, pins := s.pins, sched := s.sched, draws := s.draws, driver := s.driver, cmds := s.cmds }

end Sys2Proof.Machine
end

