-- ==== Sys2Proof/Machine/Clock.lean ====
section
/-! DEFINITION. The CLOCK unit's operation NOW (41_clock.md). The `TICK` event is `State.timerOverflow` in Ops. -/

namespace Sys2Proof.Machine

/-- NOW: read the millisecond clock (R93). -/
def execNow (s : State) : Host.Outcome State Fault Refusal :=
  let r := s.readClock
  .next (r.2.answer (some (.millis r.1)))

end Sys2Proof.Machine
end

