-- ==== Sys2Proof/Machine/Operands.lean ====
section
/-! DEFINITION. What the operations make of their operands: the digits and the enable of a display frame, the normalised
duration, the Mode of a `sel` field and the two-bit pattern of a Mode. -/

namespace Sys2Proof.Machine

/-- The decimal digit that position `i` of the display shows of a time (R110, R111): ones of minutes, tens of seconds, ones of
seconds, on naturals. -/
def displayDigit (time : Seconds) (i : Fin 3) : Fin 10 :=
  match i with
  | 0 => ⟨(time.toNat / 60) % 10, Nat.mod_lt _ (by decide)⟩
  | 1 => ⟨(time.toNat % 60) / 10, by omega⟩
  | 2 => ⟨(time.toNat % 60) % 10, Nat.mod_lt _ (by decide)⟩

/-- The levels of the segment lines for a digit (R115, R116). -/
def segLevelsOf (c : Config) (d : Fin 10) : BitVec 7 := c.segLevels.get d

/-- The enable lines: the rendered digit's, if the mask lets it (R113). -/
def digitEnable (i : Fin 3) (mask : BitVec 3) : BitVec 3 := (0b001#3 <<< i.val) &&& mask

/-- The dot line: lit by the sentinel and by no other value (R114). -/
def dotLevel (c : Config) (dots : BitVec 8) : BitVec 1 := if dots = c.dotSentinel then 1#1 else 0#1

/-- The next cursor, `(i + 1) % 3` (R112). -/
def nextCursor (i : Fin 3) : Fin 3 := ⟨(i.val + 1) % 3, Nat.mod_lt _ (by decide)⟩

/-- The duration LOAD returns for a stored value: itself up to 599, else the default; unsigned (R125, R126). -/
def normalise (c : Config) (raw : Seconds) : Seconds :=
  if raw.toNat ≤ maxDuration then raw else c.defaultDuration

/-- The Mode a `sel` field names (R74, R136). -/
def modeOfSel (sel : BitVec 2) : Option Mode :=
  match sel with
  | 0#2 => some .top
  | 1#2 => some .bottom
  | 2#2 => some .both
  | _ => none

/-- The two lines of a Mode, bit 0 Top and bit 1 Bottom: the levels SHOW drives (R135) and the channels an exposure in that Mode
asserts (R138). -/
def modePattern : Mode → BitVec 2
  | .top => 0b01#2
  | .bottom => 0b10#2
  | .both => 0b11#2

/-- The successor in the cycle Top, Bottom, Both (R136). -/
def modeSucc : Mode → Mode
  | .top => .bottom
  | .bottom => .both
  | .both => .top

/-- The button state two pin levels show: `{ ~m, ~s }`, both pins active-low (R100, R105). -/
def buttonsOfPins (p : Pins) : Buttons := ~~~p.mode ++ ~~~p.start

end Sys2Proof.Machine
end

