-- ==== Sys2Proof/Machine/ConfigStore.lean ====
section
/-! DEFINITION. The CONFIG unit's operations LOAD and SAVE (44_config_store.md). -/

namespace Sys2Proof.Machine

/-- LOAD: read the stored duration and normalise it; nothing is written (R125, R128). -/
def execLoad (s : State) : Host.Outcome State Fault Refusal :=
  match s.nvRead16 with
  | some raw => .next (s.answer (some (.duration (normalise s.cfg raw))))
  | none => .fault .nvAbsent

/-- SAVE: store a duration, both bytes in one step, without a range check (R127). -/
def execSave (dur : Seconds) (s : State) : Host.Outcome State Fault Refusal :=
  match s.nvWrite16 dur with
  | some t => .next (t.answer none)
  | none => .fault .nvAbsent

end Sys2Proof.Machine
end

