-- ==== Sys2Proof/Machine/Display.lean ====
section
/-! DEFINITION. The DISPLAY unit's operation REFRESH (43_display.md). -/

namespace Sys2Proof.Machine

/-- REFRESH: render one digit of a time value and advance the digit cursor (R110). -/
def execRefresh (time : Seconds) (dots : BitVec 8) (mask : BitVec 3) (s : State) : Host.Outcome State Fault Refusal :=
  let i := s.cursor
  .next ((s.setFrame (segLevelsOf s.cfg (displayDigit time i)) (digitEnable i mask) (dotLevel s.cfg dots) (nextCursor i)).answer none)

end Sys2Proof.Machine
end

