-- ==== Sys2Proof/Machine/Gpio.lean ====
section
/-! DEFINITION. The GPIO unit's operations SHOW and CHAN (45_mode_indicator.md). -/

namespace Sys2Proof.Machine

/-- SHOW: drive the two indicator lines from a Mode; `sel = 3` names none and is refused (R135). -/
def execShow (sel : BitVec 2) (s : State) : Host.Outcome State Fault Refusal :=
  match modeOfSel sel with
  | some m => .next ((s.setLed (modePattern m)).answer none)
  | none => .refused .reservedMode

/-- CHAN: drive the two output-channel control lines (R137). -/
def execChan (sel : BitVec 2) (s : State) : Host.Outcome State Fault Refusal :=
  .next ((s.setUv sel).answer none)

end Sys2Proof.Machine
end

