-- ==== Sys2Proof/Machine/Flags.lean ====
section
/-! DEFINITION. The block's only flags, the two edge sets (R29), and the six-bit answer of POLL (R83) with its parts. -/

namespace Sys2Proof.Machine

/-- `pressed = current & ~previous` (R29). -/
def pressedSet (cur prev : Buttons) : Buttons := cur &&& ~~~prev

/-- `released = ~current & previous` (R29). -/
def releasedSet (cur prev : Buttons) : Buttons := ~~~cur &&& prev

/-- `{ released, pressed, current }` (R83, R100). -/
def pollWord (cur prev : Buttons) : BitVec 6 := releasedSet cur prev ++ pressedSet cur prev ++ cur

/-- Bits 1:0 of POLL's answer (R83). -/
def currentOf (r : BitVec 6) : Buttons := r.extractLsb' 0 2

/-- Bits 3:2 of POLL's answer (R83). -/
def pressedOf (r : BitVec 6) : Buttons := r.extractLsb' 2 2

/-- Bits 5:4 of POLL's answer (R83). -/
def releasedOf (r : BitVec 6) : Buttons := r.extractLsb' 4 2

end Sys2Proof.Machine
end

