-- ==== Sys2Proof/Machine/Input.lean ====
section
/-! DEFINITION. The INPUT unit's operation POLL (42_input.md). -/

namespace Sys2Proof.Machine

/-- The qualifying test (R101): at least `DEBOUNCE_MS` since the latest qualifying sample, modulo `2^W`. -/
def State.qualifies (s : State) (t : Nat) : Bool := decide (s.cfg.debounceMs ≤ subW s.cfg.w t s.btnT)

/-- The button state this call takes: a qualifying sample of the pins, with `BTN_T <- t`, or the last-accepted state (R100). -/
def State.sample (s : State) (t : Nat) : Buttons × State :=
  if s.qualifies t then
    let p := s.pinRead
    (buttonsOfPins p.1, p.2.setBtnT t)
  else
    (s.btnCur, s)

/-- POLL: sample, debounce, and return the button state with its edges (R100). -/
def execPoll (s : State) : Host.Outcome State Fault Refusal :=
  let c := s.readClock
  let prev := c.2.btnCur
  let r := c.2.sample c.1
  .next ((r.2.setButtons r.1 prev).answer (some (.buttons (pollWord r.1 prev))))

end Sys2Proof.Machine
end

