-- ==== Sys2Proof/Machine/Dispatch.lean ====
section
/-! DEFINITION. One arm per operation of the table (R72). -/

namespace Sys2Proof.Machine

def exec (i : Instr) (s : State) : Host.Outcome State Fault Refusal :=
  match i with
  | .now => Sys2Proof.Machine.execNow s
  | .poll => Sys2Proof.Machine.execPoll s
  | .refresh time dots mask => Sys2Proof.Machine.execRefresh time dots mask s
  | .load => Sys2Proof.Machine.execLoad s
  | .save dur => Sys2Proof.Machine.execSave dur s
  | .showMode sel => Sys2Proof.Machine.execShow sel s
  | .chan sel => Sys2Proof.Machine.execChan sel s

end Sys2Proof.Machine
end

