-- ==== Sys2Proof/Machine/MainController.lean ====
section
/-! DEFINITION. The reference host of 46_main_controller.md: the Main Controller, which issues the block's operations and decides
from their results. One turn of it issues at most one operation. -/

namespace Sys2Proof.Machine

/-- Go on with the state an operation leaves; a fault or a refusal ends the run. -/
def andThen (o : Host.Outcome State Fault Refusal) (k : State → State) : Host.Outcome State Fault Refusal :=
  match o with
  | .next t => .next (k t)
  | .fault r => .fault r
  | .refused r => .refused r

/-- The milliseconds of a NOW just answered. -/
def millisOf : Option Result → Nat
  | some (.millis ms) => ms
  | _ => 0

/-- The six bits of a POLL just answered. -/
def buttonsOf : Option Result → BitVec 6
  | some (.buttons r) => r
  | _ => 0#6

/-- The seconds of a LOAD just answered. -/
def durationOf : Option Result → Seconds
  | some (.duration d) => d
  | _ => 0#16

/-- `IDLE_DOTS`: the value the parameter record names, else the open one (R5, D37). -/
def dotsWhenIdle (c : Config) : BitVec 8 :=
  match c.idleDots with
  | some d => d
  | none => Config.openIdleDots

/-- A blinking element is shown while `blink < BLINK_HALF` (R163). -/
def MainCtl.shown (m : MainCtl) (c : Config) : Bool := decide (m.blink < c.blinkHalf)

/-- The hold counters after a POLL (R150). -/
def MainCtl.countHolds (m : MainCtl) (cur : Buttons) : MainCtl :=
  { m with
    startHold := if cur.getLsbD 0 then m.startHold + 1 else 0
    modeHold := if cur.getLsbD 1 then m.modeHold + 1 else 0 }

/-- `ctl <- c`; the blink counter starts anew on entry to every state but Idle (R163). -/
def MainCtl.enter (m : MainCtl) (c : Ctl) : MainCtl :=
  { m with ctl := c, blink := if c = .idle then m.blink else 0 }

/-- Parts (4) to (6) of an iteration (R148). -/
def closing (time : Seconds) (dots : BitVec 8) (mask : BitVec 3) : List HostAct :=
  [.refresh time dots mask, .delay]

/-- The Idle logic: long Start, else long Mode, else Mode released (R152 to R156). -/
def MainCtl.idleLogic (m : MainCtl) (c : Config) (released : Buttons) : MainCtl :=
  let rest := closing m.duration (dotsWhenIdle c) 0b111#3
  if m.startHold = c.startHold then
    { m with todo := [.drain none, .stamp, .lampsOn] ++ rest }
  else if m.modeHold = c.modeHold then
    { MainCtl.enter { m with minutes := 0, seconds := 0 } .setupMin with todo := rest }
  else if released.getLsbD 1 then
    { m with mode := modeSucc m.mode, todo := .indicate :: rest }
  else
    { m with todo := rest }

/-- The Time-Setup minutes logic: the operands first, then the Start edge, then the Mode edge (R157 to R159). -/
def MainCtl.setupMinLogic (m : MainCtl) (c : Config) (pressed : Buttons) : MainCtl :=
  let duration := BitVec.ofNat 16 (m.minutes * 60)
  let rest := closing duration (dotsWhenIdle c) (if m.shown c then 0b111#3 else 0b110#3)
  let m1 := { m with duration := duration }
  let m2 := if pressed.getLsbD 0 then { m1 with minutes := (m.minutes + 1) % 10, blink := 0 } else m1
  if pressed.getLsbD 1 then { m2 with todo := .drain (some .setupSec) :: rest } else { m2 with todo := rest }

/-- The Time-Setup seconds logic: the operands first, then the Start edge, then the Mode edge, which commits (R160 to R162). -/
def MainCtl.setupSecLogic (m : MainCtl) (c : Config) (pressed : Buttons) : MainCtl :=
  let duration := BitVec.ofNat 16 (m.minutes * 60 + m.seconds)
  let rest := closing duration (dotsWhenIdle c) (if m.shown c then 0b111#3 else 0b001#3)
  let m1 := { m with duration := duration }
  let m2 := if pressed.getLsbD 0 then { m1 with seconds := (m.seconds + c.secStep) % 60, blink := 0 } else m1
  if pressed.getLsbD 1 then
    { m2 with
      duration := BitVec.ofNat 16 (m2.minutes * 60 + m2.seconds)
      todo := [.commit, .drain (some .idle)] ++ rest }
  else { m2 with todo := rest }

/-- Parts (2) and (3) of an iteration, from the answer of its POLL (R148, R150); in Exposure part (3) begins with a NOW of its
own turn (R166). -/
def MainCtl.afterPoll (m : MainCtl) (c : Config) (r : BitVec 6) : MainCtl :=
  let m1 := m.countHolds (currentOf r)
  match m1.ctl with
  | .idle => m1.idleLogic c (releasedOf r)
  | .setupMin => m1.setupMinLogic c (pressedOf r)
  | .setupSec => m1.setupSecLogic c (pressedOf r)
  | .exposure => { m1 with todo := [.countdown (currentOf r)] }

/-- Whole seconds of the exposure so far (R166). -/
def MainCtl.elapsed (m : MainCtl) (c : Config) (now : Nat) : Nat := subW c.w now m.entry / 1000

/-- `remaining = max(duration - elapsed, 0)` (R166). -/
def MainCtl.remaining (m : MainCtl) (c : Config) (now : Nat) : Nat := m.duration.toNat - m.elapsed c now

/-- One of the two exits of Exposure fires: acknowledged at zero, or Start held for the threshold (R169, R170). -/
def MainCtl.exits (m : MainCtl) (c : Config) (now : Nat) (cur : Buttons) : Bool :=
  (decide (m.remaining c now = 0) && cur.getLsbD 0) || decide (m.startHold = c.startHold)

/-- The Exposure logic after its NOW: lamps off at zero, the exits, the operands of the display (R166 to R171). -/
def MainCtl.exposureLogic (m : MainCtl) (c : Config) (now : Nat) (cur : Buttons) : List HostAct :=
  let remaining := m.remaining c now
  let dots := if m.shown c then c.dotSentinel else 0x00#8
  let mask := if 0 < remaining then 0b111#3 else if m.shown c then 0b111#3 else 0b000#3
  (if remaining = 0 then [.lampsOff] else []) ++
  (if m.exits c now cur then [.lampsOff, .drain (some .idle)] else []) ++
  closing (BitVec.ofNat 16 remaining) dots mask

/-- After one POLL of a drain: go on after a pause while a button reads pressed, else clear the hold counters and enter the
state the drain leads to (R151). -/
def MainCtl.afterDrain (m : MainCtl) (into : Option Ctl) (r : BitVec 6) : MainCtl :=
  let m1 := m.countHolds (currentOf r)
  if currentOf r = 0#2 then
    let m2 := { m1 with startHold := 0, modeHold := 0 }
    match into with
    | some c => m2.enter c
    | none => m2
  else { m1 with todo := .delay :: .drain into :: m1.todo }

/-- Boot after its LOAD (R147). -/
def MainCtl.started (m : MainCtl) : MainCtl :=
  { m with ctl := .idle, mode := .top, startHold := 0, modeHold := 0, blink := 0 }

/-- The operation an entry of the host's list issues, if any. -/
def operationOf (a : HostAct) (m : MainCtl) : Option Instr :=
  match a with
  | .load => some .load
  | .start => some (.showMode (modeNumber .top))
  | .indicate => some (.showMode (modeNumber m.mode))
  | .drain _ => some .poll
  | .stamp => some .now
  | .lampsOn => some (exposeOp m.mode)
  | .lampsOff => some uvOffOp
  | .countdown _ => some .now
  | .commit => some (.save m.duration)
  | .refresh time dots mask => some (.refresh time dots mask)
  | .delay => none

/-- What the host makes of the answer to an entry's operation. -/
def reactionTo (a : HostAct) (c : Config) (r : Option Result) (m : MainCtl) : MainCtl :=
  match a with
  | .load => { m with duration := durationOf r }
  | .start => m.started
  | .indicate => m
  | .drain into => m.afterDrain into (buttonsOf r)
  | .stamp => { m with entry := millisOf r }
  | .lampsOn => MainCtl.enter { m with startHold := 0 } .exposure
  | .lampsOff => m
  | .countdown cur => { m with todo := m.exposureLogic c (millisOf r) cur ++ m.todo }
  | .commit => m
  | .refresh _ _ _ => { m with blink := (m.blink + 1) % c.blinkMod }
  | .delay => m

/-- One entry of the host's list performed: its operation, and what the host does with the answer; `DELAY` issues none and
changes nothing (R149). -/
def hostAct (a : HostAct) (s : State) : Host.Outcome State Fault Refusal :=
  match operationOf a s.main with
  | some i => andThen (exec i s) fun t => t.setMain (reactionTo a t.cfg t.result t.main)
  | none => .next s

/-- One turn of the reference host: the next entry of its list, or, with an empty list, the POLL that begins a loop iteration
(R148). -/
def mainTurn (s : State) : Host.Outcome State Fault Refusal :=
  match s.main.todo with
  | [] => andThen (exec .poll s) fun t => t.setMain (t.main.afterPoll t.cfg (buttonsOf t.result))
  | a :: rest => hostAct a (s.setMain { s.main with todo := rest })

end Sys2Proof.Machine
end

