-- ==== Sys2Proof/Machine/Turn.lean ====
section
/-! DEFINITION. What one step of the machine is: which agent moves (R13, R58) and what its move does. -/

namespace Sys2Proof.Machine

/-- The refusal of a word that spells no operation (R78). -/
def refusalOf : DecodeError → Refusal
  | .reservedOpcode => .reservedOpcode
  | .reservedBits => .reservedBits
  | .reservedMode => .reservedMode

/-- The command port takes one word: the operation it spells is performed, any other word is refused (R70, R78). -/
def issueWord (w : CommandWord) (s : State) : Host.Outcome State Fault Refusal :=
  match decode w with
  | .ok i => exec i s
  | .error e => .refused (refusalOf e)

/-- One turn of a host that performs a command list: its next word, or the end of the run (R24). -/
def listTurn (s : State) : Host.Outcome State Fault Refusal :=
  match s.cmds with
  | [] => .fault .endOfRun
  | w :: rest => issueWord w (s.setCmds rest)

/-- One turn of the host (R13). -/
def hostTurn (s : State) : Host.Outcome State Fault Refusal :=
  match s.driver with
  | .commandList => listTurn s
  | .mainController => mainTurn s

/-- The move of an agent (R12, R13). -/
def takeTurn (t : Turn) (s : State) : Host.Outcome State Fault Refusal :=
  match t with
  | .timer => .next s.timerOverflow
  | .host => hostTurn s
  | .env p => .next (s.setPins p)
  | .power => .next s.powerCycle

/-- Which agent moves, and the state with that choice used up: the next turn laid down, else a free value (R58, U10). -/
def State.nextTurn (s : State) : Turn × State :=
  match s.sched with
  | t :: rest => (t, s.setSched rest)
  | [] => (Config.freeTurn s.draws, s.drawn)

/-- One step: a held overflow that may be delivered comes first (R25), else the next agent moves. -/
def oneStep (s : State) : Host.Outcome State Fault Refusal :=
  if s.tickHeld then .next s.deliverHeld
  else takeTurn s.nextTurn.1 s.nextTurn.2

end Sys2Proof.Machine
end

