-- ==== Sys2Proof/Machine/Step.lean ====
section
/-! DEFINITION. The step of the machine, and how an operation comes to be the next one performed. -/

namespace Sys2Proof.Machine

/-- One step (R12): one `TICK`, one operation of the host, one change of the pins or one reset. -/
def step (s : State) : Host.Outcome State Fault Refusal := Sys2Proof.Machine.oneStep s

/-- The state with a command word at the head of the host's list and the host's turn next, so that the next step performs it
(R24, R70): no held overflow goes before it. -/
def State.withFetchWord (s : State) (nbits w : Nat) : State :=
  { s with
    tickPend := false, driver := .commandList, sched := .host :: s.sched, cmds := BitVec.ofNat 32 (w % 2 ^ nbits) :: s.cmds }

end Sys2Proof.Machine
end

