-- ==== Sys2Proof/Safety.lean ====
section
/-! DEFINITION. What counts as a legal state and a safe run, in the terms the claims use: the block's invariant, the reference
host's invariant, the lamp-safety invariant, and runs of the block written as lists of events (R12, R58). -/

namespace Sys2Proof.Machine

/-- At most one digit-enable line is high (R32). -/
def atMostOneDigit (e : BitVec 3) : Bool := e = 0b000#3 || e = 0b001#3 || e = 0b010#3 || e = 0b100#3

/-- The legal states of the block between steps: R5 for the parameters, R21, R22, R25, R28, R32 for the registers, and the
store in its canonical form inside `NV_SIZE` (R50). -/
structure BlockInv (s : State) : Prop where
  params : s.cfg.Valid
  ms_lt : s.ms < 2 ^ s.cfg.w
  fract_le : s.fract ≤ 999
  enabled : s.ie = true
  none_held : s.tickPend = false
  btnT_lt : s.btnT < 2 ^ s.cfg.w
  one_digit : atMostOneDigit s.digen = true
  store_wf : s.nv.wf
  store_in : ∀ c ∈ s.nv, c.1 < s.cfg.nvSize

/-- The legal values of the reference host's variables (R145): the edit values and the blink counter in their ranges, the
timestamp of `W` bits, the duration in `0 .. 599` (R125, R162). -/
structure HostInv (s : State) : Prop where
  params : s.cfg.Valid
  ms_lt : s.ms < 2 ^ s.cfg.w
  minutes_le : s.main.minutes ≤ 9
  seconds_le : s.main.seconds ≤ 59
  blink_lt : s.main.blink < s.cfg.blinkMod
  entry_lt : s.main.entry < 2 ^ s.cfg.w
  duration_le : s.main.duration.toNat ≤ maxDuration

/-- Every register of R20 is at its reset value (R205). -/
def AtReset (s : State) : Prop :=
  s.ms = 0 ∧ s.fract = 0 ∧ s.ie = true ∧ s.tickPend = false ∧ s.btnCur = 0b00#2 ∧ s.btnPrev = 0b00#2 ∧ s.btnT = 0 ∧
  s.cursor = 0 ∧ s.digen = 0b000#3 ∧ s.seg = 0b1111111#7 ∧ s.dot = 0#1 ∧ s.led = 0b00#2 ∧ s.uv = 0b00#2

/-- Reading the host's list from the front with the lamps on or off: neither a drain (R171, R216) nor the boot sequence (R147) is
reached while the lamps are on. -/
def lampsGuarded : Bool → List HostAct → Bool
  | _, [] => true
  | _, .lampsOn :: rest => lampsGuarded true rest
  | _, .lampsOff :: rest => lampsGuarded false rest
  | on, .drain _ :: rest => !on && lampsGuarded on rest
  | on, .start :: rest => !on && lampsGuarded on rest
  | on, _ :: rest => lampsGuarded on rest

/-- Lamp safety of the box under the reference host: the UV lines are high only in Exposure (R138, R140), and its list never
comes to a drain with the lamps on (R171, R216). -/
structure LampsInv (s : State) : Prop where
  host : s.driver = .mainController
  only_exposure : s.main.ctl ≠ .exposure → s.uv = 0b00#2
  guarded : lampsGuarded (s.uv != 0b00#2) s.main.todo = true

/-- One event of a run of the block (R12). -/
inductive Event where
  | tick
  | op (i : Instr)
  | levels (p : Option Pins)
  | powerCycle
  deriving DecidableEq, Repr

/-- What an event does to the block. -/
def perform (e : Event) (s : State) : Host.Outcome State Fault Refusal :=
  match e with
  | .tick => .next s.timerOverflow
  | .op i => exec i s
  | .levels p => .next (s.setPins p)
  | .powerCycle => .next s.powerCycle

/-- A run of the block: its events one after another, in one total order (R58). -/
def runEvents : List Event → State → Host.Outcome State Fault Refusal
  | [], s => .next s
  | e :: es, s =>
      match perform e s with
      | .next t => runEvents es t
      | .fault r => .fault r
      | .refused r => .refused r

/-- The event stores nothing to `NV` (R50). -/
def Event.keepsStore : Event → Bool
  | .op (.save _) => false
  | _ => true

/-- The event raises no UV line (R140). -/
def Event.keepsLampsOff : Event → Bool
  | .op (.chan sel) => sel == 0b00#2
  | _ => true

/-- The event is neither a POLL nor a power cycle: it leaves the button registers alone (R20). -/
def Event.keepsButtons : Event → Bool
  | .op .poll => false
  | .powerCycle => false
  | _ => true

/-- The host's next turn at the command port performs this operation: it is the host's turn, no held overflow goes first, and
the command list's first word spells it (R24, R25, R70). -/
def State.issues (s : State) (i : Instr) : Prop :=
  s.tickHeld = false ∧ s.nextTurn.1 = .host ∧ s.driver = .commandList ∧ ∃ w rest, s.cmds = w :: rest ∧ decode w = .ok i

/-- The reference host's next turn performs this entry of its list. -/
def State.hostDoes (s : State) (a : HostAct) : Prop :=
  s.tickHeld = false ∧ s.nextTurn.1 = .host ∧ s.driver = .mainController ∧ ∃ rest, s.main.todo = a :: rest

/-- The reference host's next turn begins a loop iteration with its POLL (R148). -/
def State.hostPolls (s : State) : Prop :=
  s.tickHeld = false ∧ s.nextTurn.1 = .host ∧ s.driver = .mainController ∧ s.main.todo = []

/-- The host's turn at the command port, the next word being `w` (R24, R70): used by statements about words. -/
def AtCommandPort (s : State) (w : CommandWord) (rest : List CommandWord) : Prop :=
  s.tickHeld = false ∧ s.nextTurn.1 = .host ∧ s.driver = .commandList ∧ s.cmds = w :: rest

/-- The word has a non-zero bit in the field its format marks "zero" (R71): formats N, R, S, M by the opcode. -/
abbrev HasReservedBits (op w : Nat) : Prop :=
  ((op = 1 ∨ op = 2 ∨ op = 4) ∧ w % 2 ^ 28 ≠ 0) ∨
  (op = 3 ∧ w / 2 ^ 27 % 2 ≠ 0) ∨
  (op = 5 ∧ w / 2 ^ 16 % 2 ^ 12 ≠ 0) ∨
  ((op = 6 ∨ op = 7) ∧ w / 2 ^ 2 % 2 ^ 26 ≠ 0)

/-- The period of the timer: the one the parameter record names, else some sub-millisecond one (R5, D7). -/
def IsPeriod (c : Config) (us : Nat) : Prop :=
  (∀ n, c.tickUs = some n → us = n) ∧ (c.tickUs = none → 1 ≤ us ∧ us ≤ 999)

/-- The qualifying test of R101 on the integers: `(MS -_W BTN_T) >= DEBOUNCE_MS`. -/
def Qualifies (s : State) : Prop :=
  (s.cfg.debounceMs : Int) ≤ ((s.ms : Int) - (s.btnT : Int) + 2 ^ s.cfg.w) % 2 ^ s.cfg.w

/-- The 16-bit value two bytes spell in a byte order, lowest offset first (R54). -/
def spelled (e : Endian) (b0 b1 : Byte) : Nat :=
  match e with
  | .little => b0.toNat + 256 * b1.toNat
  | .big => 256 * b0.toNat + b1.toNat

/-- Milliseconds since the exposure's entry, modulo `2^W` (R166). -/
def sinceEntry (s : State) : Int := ((s.ms : Int) - (s.main.entry : Int) + 2 ^ s.cfg.w) % 2 ^ s.cfg.w

end Sys2Proof.Machine
end

