-- ==== Sys2Proof/Certificates/Slice0/Obligations.lean ====
section
/-! DEFINITION. The statements for the provers, each `def Obligations.<Name> : Prop`. A docstring names the rule of spec/ a
statement formalises and, where it rests on a choice of the model, the log entry. -/

open Sys2Proof Sys2Proof.Machine

/-! ### The command encoding -/

/-- Decoding the word of any operation some word spells gives it back, every operand at every value (R71, R72, R74, R79). -/
def Obligations.DecodeOfEncode : Prop :=
  ∀ i : Instr, i.wellFormed = true → decode (encode i) = .ok i

/-- No two words spell one operation, and none spells SHOW with `sel = 3`: "no alternate decodings" (R72, R78, R79). -/
def Obligations.EncodeOfDecode : Prop :=
  ∀ (w : CommandWord) (i : Instr), decode w = .ok i → encode i = w ∧ i.wellFormed = true

/-- The worked words of R84, accepted and refused. -/
def Obligations.WorkedWordsDecode : Prop :=
  decode 0x10000000#32 = .ok .now ∧
  decode 0x20000000#32 = .ok .poll ∧
  decode 0x37FF007D#32 = .ok (.refresh 125#16 0xFF#8 0b111#3) ∧
  decode 0x30000000#32 = .ok (.refresh 0#16 0x00#8 0b000#3) ∧
  decode 0x40000000#32 = .ok .load ∧
  decode 0x5000007D#32 = .ok (.save 125#16) ∧
  decode 0x50000257#32 = .ok (.save 599#16) ∧
  decode 0x60000000#32 = .ok (.showMode (modeNumber .top)) ∧
  decode 0x60000001#32 = .ok (.showMode (modeNumber .bottom)) ∧
  decode 0x60000002#32 = .ok (.showMode (modeNumber .both)) ∧
  decode 0x70000003#32 = .ok (.chan 0b11#2) ∧
  decode 0x00000000#32 = .error .reservedOpcode ∧
  decode 0x80000000#32 = .error .reservedOpcode ∧
  decode 0x10000001#32 = .error .reservedBits ∧
  decode 0x38000000#32 = .error .reservedBits ∧
  decode 0x50010000#32 = .error .reservedBits ∧
  decode 0x60000003#32 = .error .reservedMode ∧
  decode 0x60000004#32 = .error .reservedBits

/-- R78: the three refusals in their order, on the word as a number, and that every other word is an operation and completes
(LOAD and SAVE where `NV_ADDR + 1 < NV_SIZE`, R5). A refusal ends the run: it changes no state and returns no result. -/
def Obligations.RefusalReasonsInOrder : Prop :=
  ∀ (s : State) (w : CommandWord) (rest : List CommandWord), AtCommandPort s w rest →
    let op := w.toNat / 2 ^ 28
    if op = 0 ∨ 8 ≤ op then step s = .refused .reservedOpcode
    else if HasReservedBits op w.toNat then step s = .refused .reservedBits
    else if op = 6 ∧ w.toNat % 2 ^ 2 = 3 then step s = .refused .reservedMode
    else ∃ i, decode w = .ok i ∧ (s.cfg.nvAddr + 1 < s.cfg.nvSize → ∃ t, step s = .next t)

/-! ### The step -/

/-- When the next word of the list spells `i`, the step is `i` performed with the word and the turn used up (R24, R70). -/
def Obligations.StepPerformsTheDecodedOperation : Prop :=
  ∀ (s : State) (w : CommandWord) (rest : List CommandWord) (i : Instr), AtCommandPort s w rest → decode w = .ok i →
    step s = exec i (s.nextTurn.2.setCmds rest)

/-- A word placed at the command port is what the next step performs (log entry 7). -/
def Obligations.PlacedWordIsPerformedNext : Prop :=
  ∀ (s : State) (w : Nat) (i : Instr), decodeTableWord 32 w = some i →
    step (s.withFetchWord 32 w) = exec i { s with tickPend := false, driver := .commandList }

/-- "a list's end is the end of the run" (R24): with no word left, the host's turn ends the run (log entry 7). -/
def Obligations.EndOfListEndsTheRun : Prop :=
  ∀ s : State, s.tickHeld = false → s.nextTurn.1 = .host → s.driver = .commandList → s.cmds = [] →
    step s = .fault .endOfRun

/-- No step changes a parameter (R5, R13; log entry 1). -/
def Obligations.ParametersNeverChange : Prop :=
  ∀ s t : State, step s = .next t → t.cfg = s.cfg

/-! ### CLOCK -/

/-- R93: the word, the result `MS`, and that nothing else changes but `IE`, which is 1 after the window; with `IE = 1` before, as
between any two steps, no register changes at all. -/
def Obligations.NowReadsTheClock : Prop :=
  encode .now = 0x10000000#32 ∧
  ∀ s : State, exec .now s = .next { s with ie := true, result := some (.millis s.ms) } ∧
    (s.ie = true → exec .now s = .next { s with result := some (.millis s.ms) })

/-- R90: with `IE = 1`, the timer's turn adds the period to `FRACT`, carries whole milliseconds into `MS` modulo `2^W`, and
writes nothing else. -/
def Obligations.TickAddsThePeriod : Prop :=
  ∀ s : State, s.ms < 2 ^ s.cfg.w → s.ie = true → s.tickPend = false → s.nextTurn.1 = .timer →
    ∃ us, IsPeriod s.cfg us ∧
      step s = .next { s.nextTurn.2 with
        ms := (s.ms + (s.fract + us) / 1000) % 2 ^ s.cfg.w
        fract := (s.fract + us) % 1000 }

/-- R94: there is one period such that, for every `n`, after `n` ticks from `MS = FRACT = 0` the clock holds `n * TICK_US`
microsecond-units. -/
def Obligations.TicksAddUpWithoutDrift : Prop :=
  ∀ s : State, s.ms = 0 → s.fract = 0 → s.ie = true → s.tickPend = false →
    ∃ us, IsPeriod s.cfg us ∧ ∀ n : Nat,
      Host.Core.run Sys2Proof.core n { s with sched := List.replicate n .timer } = .next { s with
        sched := [], ms := (n * us / 1000) % 2 ^ s.cfg.w, fract := (n * us) % 1000 }

/-- R58 (b), R91 (c): over any events but a power cycle, `MS` moves on by exactly the milliseconds of the ticks among them. -/
def Obligations.ClockMovesByTheTicksOnly : Prop :=
  ∀ (s t : State) (es : List Event), s.ms < 2 ^ s.cfg.w → s.fract ≤ 999 → s.ie = true → .powerCycle ∉ es →
    runEvents es s = .next t →
    ∃ us, IsPeriod s.cfg us ∧
      t.ms = (s.ms + (s.fract + es.count .tick * us) / 1000) % 2 ^ s.cfg.w ∧
      t.fract = (s.fract + es.count .tick * us) % 1000

/-- R39: only a delivered tick or a reset changes `MS` or `FRACT`, whatever the host does. -/
def Obligations.OnlyTicksWriteTheClock : Prop :=
  ∀ s t : State, step s = .next t → t.ms ≠ s.ms ∨ t.fract ≠ s.fract →
    s.tickHeld = true ∨ (s.nextTurn.1 = .timer ∧ s.ie = true) ∨ s.nextTurn.1 = .power

/-- R25, R184: an overflow with `IE = 0` is held, one deep, and touches nothing else; one that is held is delivered as a tick,
ahead of any agent's move, once `IE = 1`, and taking it clears the pending state. NOW, which restores `IE`, leaves it
deliverable. -/
def Obligations.HeldOverflowIsDelivered : Prop :=
  (∀ s : State, s.ie = false → s.nextTurn.1 = .timer → step s = .next { s.nextTurn.2 with tickPend := true }) ∧
  (∀ s : State, s.ie = true → s.tickPend = true → s.ms < 2 ^ s.cfg.w →
    ∃ us, IsPeriod s.cfg us ∧
      step s = .next { s with
        tickPend := false
        ms := (s.ms + (s.fract + us) / 1000) % 2 ^ s.cfg.w
        fract := (s.fract + us) % 1000 }) ∧
  (∀ s t : State, s.tickPend = true → exec .now s = .next t → t.tickHeld = true)

/-! ### INPUT -/

/-- R100, R101: a qualifying call takes the complement of both pin levels, at the levels laid down or, where none are, at some
levels; any other call reuses the last-accepted state and reports no edge. Everything else is unchanged, but that `IE` is 1 and that
the model's own count of draws may move on at a sample. -/
def Obligations.PollSamplesOrReuses : Prop :=
  encode .poll = 0x20000000#32 ∧
  ∀ s : State,
    (Qualifies s → ∃ (p : Pins) (n : Nat), (∀ l, s.pins = some l → p = l) ∧
      let cur : Buttons := ~~~p.mode ++ ~~~p.start
      exec .poll s = .next { s with
        ie := true
        draws := n
        btnT := s.ms
        btnPrev := s.btnCur
        btnCur := cur
        result := some (.buttons ((~~~cur &&& s.btnCur) ++ (cur &&& ~~~s.btnCur) ++ cur)) }) ∧
    (¬ Qualifies s →
      exec .poll s = .next { s with
        ie := true
        btnPrev := s.btnCur
        result := some (.buttons (0b00#2 ++ 0b00#2 ++ s.btnCur)) })

/-- R29: what POLL returns are the edge sets of the two button registers the step has just written, bit by bit, never both for
one button; no other operation returns them; and a POLL at reset state returns none. -/
def Obligations.PollReturnsTheEdgeSets : Prop :=
  (∀ (s t : State) (r : BitVec 6) (b : Nat), exec .poll s = .next t → t.result = some (.buttons r) → b < 2 →
    r.getLsbD b = t.btnCur.getLsbD b ∧
    r.getLsbD (2 + b) = (t.btnCur.getLsbD b && !t.btnPrev.getLsbD b) ∧
    r.getLsbD (4 + b) = (!t.btnCur.getLsbD b && t.btnPrev.getLsbD b) ∧
    (r.getLsbD (2 + b) && r.getLsbD (4 + b)) = false) ∧
  (∀ (i : Instr) (s t : State) (r : BitVec 6), i ≠ .poll → exec i s = .next t → t.result ≠ some (.buttons r)) ∧
  (∀ t : State, exec .poll State.reset = .next t → t.result = some (.buttons 0#6))

/-- R103 (b): an edge one POLL reports, the next POLL does not, whatever happens in between (no power cycle). -/
def Obligations.EdgeIsReportedOnce : Prop :=
  ∀ (s t u v : State) (es : List Event) (r1 r2 : BitVec 6) (k : Nat),
    exec .poll s = .next t → t.result = some (.buttons r1) →
    (∀ e ∈ es, e.keepsButtons = true) → runEvents es t = .next u →
    exec .poll u = .next v → v.result = some (.buttons r2) →
    2 ≤ k → k < 6 → r1.getLsbD k = true → r2.getLsbD k = false

/-- R101, R103 (a): over every step of the machine, the debounced state changes only in a qualifying sample, which `BTN_T`
records, or by a power cycle. -/
def Obligations.ButtonsChangeOnlyInQualifyingSamples : Prop :=
  ∀ s t : State, step s = .next t → t.btnCur ≠ s.btnCur →
    s.nextTurn.1 = .power ∨ (s.nextTurn.1 = .host ∧ Qualifies s ∧ t.btnT = s.ms ∧ t.btnPrev = s.btnCur)

/-! ### DISPLAY -/

/-- R110: the encoding; the digit the cursor names, by the three formulas on naturals, its segment levels, the gated enable, the
dot, and the cursor's advance; everything else is unchanged. -/
def Obligations.RefreshRendersOneDigit : Prop :=
  ∀ (time : Seconds) (dots : BitVec 8) (mask : BitVec 3) (s : State),
    encode (.refresh time dots mask) = 0x3#4 ++ 0#1 ++ mask ++ dots ++ time ∧
    ∃ d : Fin 10, ∃ c : Fin 3,
      d.val = (if s.cursor = 0 then time.toNat / 60 % 10
        else if s.cursor = 1 then time.toNat % 60 / 10 else time.toNat % 60 % 10) ∧
      c.val = (s.cursor.val + 1) % 3 ∧
      exec (.refresh time dots mask) s = .next { s with
        seg := s.cfg.segLevels.get d
        digen := (1#3 <<< s.cursor.val) &&& mask
        dot := if dots = s.cfg.dotSentinel then 1#1 else 0#1
        cursor := c
        result := none }

/-- R113: after the step, enable line `k` is high exactly when `k` is the rendered digit and the mask lets it, so at most one
digit is enabled. -/
def Obligations.RefreshEnablesTheRenderedDigitOnly : Prop :=
  ∀ (time : Seconds) (dots : BitVec 8) (mask : BitVec 3) (s t : State), exec (.refresh time dots mask) s = .next t →
    (∀ k : Fin 3, t.digen.getLsbD k.val = true ↔ (k = s.cursor ∧ mask.getLsbD k.val = true)) ∧
    atMostOneDigit t.digen = true

/-- R117: the unit takes any time; the minutes digit is the ones of the minute count; two times show the same, digit by digit,
exactly when they agree modulo 600, 605 and 5 among them. -/
def Obligations.DisplayAliasesModulo600 : Prop :=
  (∀ (time : Seconds) (dots : BitVec 8) (mask : BitVec 3) (s : State), ∃ t, exec (.refresh time dots mask) s = .next t) ∧
  (∀ time : Seconds, (displayDigit time 0).val = time.toNat / 60 % 10) ∧
  (∀ t1 t2 : Seconds, (∀ i : Fin 3, displayDigit t1 i = displayDigit t2 i) ↔ t1.toNat % 600 = t2.toNat % 600) ∧
  (∀ t1 t2 : Seconds, t1.toNat % 600 = t2.toNat % 600 →
    ∀ (dots : BitVec 8) (mask : BitVec 3) (s : State), exec (.refresh t1 dots mask) s = exec (.refresh t2 dots mask) s) ∧
  (∀ i : Fin 3, displayDigit 605#16 i = displayDigit 5#16 i)

/-- R118, R112: three calls with the same operands and a full mask light one digit each, the cursor's, the next and the one after
it, modulo 3, and bring the cursor round. -/
def Obligations.ThreeRefreshesGoRound : Prop :=
  ∀ (time : Seconds) (dots : BitVec 8) (s : State), ∃ t u v : State,
    exec (.refresh time dots 0b111#3) s = .next t ∧ exec (.refresh time dots 0b111#3) t = .next u ∧
    exec (.refresh time dots 0b111#3) u = .next v ∧
    t.digen = 1#3 <<< s.cursor.val ∧ u.digen = 1#3 <<< ((s.cursor.val + 1) % 3) ∧
    v.digen = 1#3 <<< ((s.cursor.val + 2) % 3) ∧ v.cursor = s.cursor

/-! ### CONFIG -/

/-- R125 (and R126, R54): the word; the stored value if it is at most 599, else the default; nothing is written; always in
`0 .. 599` when the default is. -/
def Obligations.LoadNormalisesTheStoredValue : Prop :=
  encode .load = 0x40000000#32 ∧
  ∀ s : State, s.cfg.nvAddr + 1 < s.cfg.nvSize → ∃ d : Seconds,
    (let raw := spelled s.cfg.nvEndian (s.nv.read s.cfg.nvAddr) (s.nv.read (s.cfg.nvAddr + 1))
     d.toNat = if raw ≤ 599 then raw else s.cfg.defaultDuration.toNat) ∧
    (s.cfg.defaultDuration.toNat ≤ 599 → d.toNat ≤ 599) ∧
    exec .load s = .next { s with result := some (.duration d) }

/-- R127: the encoding; both bytes of the operand, whatever it is, at the fixed address in the platform's order; every other byte of
the store reads as before and no register changes. -/
def Obligations.SaveStoresBothBytes : Prop :=
  (∀ dur : Seconds, encode (.save dur) = 0x5#4 ++ 0#12 ++ dur) ∧
  ∀ (s : State) (dur : Seconds), s.cfg.nvAddr + 1 < s.cfg.nvSize → ∃ m : Memory,
    exec (.save dur) s = .next { s with nv := m, result := none } ∧
    spelled s.cfg.nvEndian (m.read s.cfg.nvAddr) (m.read (s.cfg.nvAddr + 1)) = dur.toNat ∧
    ∀ a, a ≠ s.cfg.nvAddr → a ≠ s.cfg.nvAddr + 1 → m.read a = s.nv.read a

/-- R129: what is saved is what a later LOAD returns, the default if it is out of range, after any events that save nothing,
power cycles among them. -/
def Obligations.SavedDurationIsLoadedBack : Prop :=
  ∀ (s t u : State) (dur : Seconds) (es : List Event), exec (.save dur) s = .next t →
    (∀ e ∈ es, e.keepsStore = true) → runEvents es t = .next u →
    ∃ v, exec .load u = .next v ∧
      v.result = some (.duration (if dur.toNat ≤ 599 then dur else s.cfg.defaultDuration))

/-- R56: repeating a SAVE with the same operand leaves the same state. -/
def Obligations.SaveIsIdempotent : Prop :=
  ∀ (s t : State) (dur : Seconds), exec (.save dur) s = .next t → exec (.save dur) t = .next t

/-- R50: over every step of the machine, a byte of the store changes only when the step performs a SAVE, of the command list or of
the reference host. -/
def Obligations.OnlySaveWritesTheStore : Prop :=
  ∀ (s t : State) (a : Nat), step s = .next t → t.nv.read a ≠ s.nv.read a →
    (∃ dur, s.issues (.save dur)) ∨ s.hostDoes .commit

/-- Model's own stop (log entry 13): LOAD and SAVE fault exactly where the parameters put the value outside the store. -/
def Obligations.StoreOutsideItsSizeFaults : Prop :=
  ∀ (s : State) (dur : Seconds),
    (exec .load s = .fault .nvAbsent ↔ s.cfg.nvSize ≤ s.cfg.nvAddr + 1) ∧
    (exec (.save dur) s = .fault .nvAbsent ↔ s.cfg.nvSize ≤ s.cfg.nvAddr + 1)

/-! ### GPIO -/

/-- R135: the encoding; the two indicator lines of each Mode by its number, everything else unchanged, and `sel = 3` refused. -/
def Obligations.ShowDrivesTheModeLines : Prop :=
  ∀ (sel : BitVec 2) (s : State),
    encode (.showMode sel) = 0x6#4 ++ 0#26 ++ sel ∧
    (sel.toNat = 0 → exec (.showMode sel) s = .next { s with led := 0b01#2, result := none }) ∧
    (sel.toNat = 1 → exec (.showMode sel) s = .next { s with led := 0b10#2, result := none }) ∧
    (sel.toNat = 2 → exec (.showMode sel) s = .next { s with led := 0b11#2, result := none }) ∧
    (sel.toNat = 3 → exec (.showMode sel) s = .refused .reservedMode)

/-- R137: the encoding; both channel lines take the operand, everything else is unchanged; and over every step of the machine the
lines hold their level but for a CHAN, of the command list or of the reference host, and for reset. -/
def Obligations.ChanDrivesBothLines : Prop :=
  (∀ (sel : BitVec 2) (s : State), encode (.chan sel) = 0x7#4 ++ 0#26 ++ sel ∧
    exec (.chan sel) s = .next { s with uv := sel, result := none }) ∧
  ∀ s t : State, step s = .next t → t.uv ≠ s.uv →
    s.nextTurn.1 = .power ∨ (∃ sel, s.issues (.chan sel)) ∨ s.hostDoes .lampsOn ∨ s.hostDoes .lampsOff

/-- R140: from reset until the first CHAN with a non-zero operand the UV lines stay low, whatever else happens. -/
def Obligations.LampsStayOffUntilChan : Prop :=
  State.reset.uv = 0b00#2 ∧
  ∀ (s t : State) (es : List Event), s.uv = 0b00#2 → (∀ e ∈ es, e.keepsLampsOff = true) → runEvents es s = .next t →
    t.uv = 0b00#2

/-! ### Frames -/

/-- Frame of every operation, after the Writer column of R20: each register is written by its own operation only; no operation
writes the clock, the parameters, the environment, the order of turns, the command list or the reference host. -/
def Obligations.OperationsWriteOnlyTheirRegisters : Prop :=
  ∀ (i : Instr) (s t : State), exec i s = .next t →
    (t.cfg = s.cfg ∧ t.ms = s.ms ∧ t.fract = s.fract ∧ t.tickPend = s.tickPend ∧ t.pins = s.pins ∧ t.sched = s.sched ∧
      t.driver = s.driver ∧ t.cmds = s.cmds ∧ t.main = s.main) ∧
    (i ≠ .now → i ≠ .poll → t.ie = s.ie) ∧
    (i ≠ .poll → t.btnCur = s.btnCur ∧ t.btnPrev = s.btnPrev ∧ t.btnT = s.btnT ∧ t.draws = s.draws) ∧
    ((∀ time dots mask, i ≠ .refresh time dots mask) →
      t.cursor = s.cursor ∧ t.digen = s.digen ∧ t.seg = s.seg ∧ t.dot = s.dot) ∧
    ((∀ sel, i ≠ .showMode sel) → t.led = s.led) ∧
    ((∀ sel, i ≠ .chan sel) → t.uv = s.uv)

/-- Memory frame (R50): every operation but SAVE leaves every byte of the store as it was, and SAVE every byte but the two at
`NV_ADDR` and `NV_ADDR + 1`. -/
def Obligations.OperationsKeepTheOtherBytes : Prop :=
  ∀ (i : Instr) (s t : State), exec i s = .next t →
    ((∀ dur, i ≠ .save dur) → ∀ a, t.nv.read a = s.nv.read a) ∧
    (∀ a, a < s.cfg.nvAddr ∨ s.cfg.nvAddr + 1 < a → t.nv.read a = s.nv.read a)

/-! ### Environment, reset, invariants -/

/-- R30, R105, R81: the environment's move changes the levels it presents and nothing else, and the next qualifying POLL takes the
levels laid down. -/
def Obligations.EnvironmentSetsThePinsOnly : Prop :=
  (∀ (s : State) (p : Option Pins), s.tickHeld = false → s.nextTurn.1 = .env p →
    step s = .next { s.nextTurn.2 with pins := p }) ∧
  ∀ (s t : State) (p : Pins), Qualifies s → exec .poll (s.setPins (some p)) = .next t →
    t.btnCur = ~~~p.mode ++ ~~~p.start ∧ t.draws = s.draws

/-- R205: the reset step gives every register its reset value and keeps `NV`, from any state; `State.reset` has the same values. -/
def Obligations.ResetStepWritesEveryRegister : Prop :=
  AtReset State.reset ∧ ∀ s : State, ∃ t, perform .powerCycle s = .next t ∧ AtReset t ∧ t.nv = s.nv

/-- R206, R194: a power cycle that the order of turns lays down is one step, the reset step (log entry 8): the registers of R20 are
at their reset values, `NV` and the parameters stay. Model's choices: the command port holds no answer (log entry 10), and the
reference host is at its boot, its variables at the values held before it writes them (log entry 20). -/
def Obligations.PowerTurnIsTheResetStep : Prop :=
  ∀ s : State, s.tickHeld = false → s.nextTurn.1 = .power →
    ∃ t, step s = .next t ∧ AtReset t ∧ t.nv = s.nv ∧ t.cfg = s.cfg ∧ t.result = none ∧ t.main = MainCtl.boot

/-- Every step of the machine keeps the block's invariant: parameters in R5's ranges, `MS` and `BTN_T` of `W` bits (R21, R28),
`FRACT <= 999` (R22), no step ends with `IE = 0` or an overflow pending (R25), at most one digit enabled (R32), no byte of the
store outside `NV_SIZE` (R50); and, the model's choice of representation (log entry 4), the store's list strictly rising. -/
def Obligations.StepKeepsTheBlockInvariant : Prop :=
  ∀ s t : State, BlockInv s → step s = .next t → BlockInv t

/-- The block's invariant holds at reset: the registers by R205, the parameters and the store's list by the model's choices (log
entries 1 and 4). -/
def Obligations.ResetMeetsTheBlockInvariant : Prop := BlockInv State.reset

/-! ### The reference host -/

/-- Every step keeps the reference host's variables in their ranges (R145), so every duration it saves is in `0 .. 599` (R162). -/
def Obligations.StepKeepsTheHostInvariant : Prop :=
  ∀ s t : State, HostInv s → step s = .next t → HostInv t

/-- The reference host's invariant holds at reset (R147; log entry 20 for the variables before the host writes them). -/
def Obligations.ResetMeetsTheHostInvariant : Prop := HostInv State.reset

/-- Lamp safety of the whole box (R138, R140, R171, R216): under the reference host every step keeps the UV lines low outside
Exposure, and no drain is ever reached with the lamps on. -/
def Obligations.StepKeepsTheLampsInvariant : Prop :=
  ∀ s t : State, LampsInv s → step s = .next t → LampsInv t

/-- Lamp safety holds when the box starts under the reference host, and it says what R216 says: when a drain is next, both UV lines
are low. -/
def Obligations.LampsInvariantAtStartAndAtDrains : Prop :=
  LampsInv { State.reset with driver := .mainController } ∧
  ∀ (s : State) (into : Option Ctl), LampsInv s → s.hostDoes (.drain into) → s.uv = 0b00#2

/-- R147: the first two turns of the reference host after reset, in this order. The first is LOAD, which drives no indicator: it
writes the duration and leaves the rest of the boot ahead. The second is SHOW Top: it lights the Top line and leaves the host in Idle
with its counters at 0, a loop iteration next. No lamp is raised. -/
def Obligations.HostBootsWithLoadAndShow : Prop :=
  ∀ s : State, s.driver = .mainController → s.main = MainCtl.boot → s.tickPend = false → s.sched = [.host, .host] →
    s.cfg.nvAddr + 1 < s.cfg.nvSize →
    ∃ (t u v : State) (d : Seconds), exec .load s = .next t ∧ t.result = some (.duration d) ∧
      step s = .next u ∧ u.result = some (.duration d) ∧ u.led = s.led ∧ u.uv = s.uv ∧
      u.main = { s.main with duration := d, todo := [.start] } ∧
      step u = .next v ∧ v.result = none ∧ v.led = 0b01#2 ∧ v.uv = s.uv ∧
      v.main = { ctl := .idle, mode := .top, duration := d, minutes := s.main.minutes, seconds := s.main.seconds,
                 startHold := 0, modeHold := 0, blink := 0, entry := s.main.entry, todo := [] } ∧
      Host.Core.run Sys2Proof.core 2 s = .next v

/-- R148, R150: an iteration begins with one POLL, which is all the turn does to the block; it counts the consecutive polls a button
is held, and clears the counter of a button not held. -/
def Obligations.HoldCountersCountPolls : Prop :=
  ∀ s : State, s.hostPolls → ∃ u t, exec .poll s.nextTurn.2 = .next u ∧ step s = .next t ∧ t = { u with main := t.main } ∧
    t.main.startHold = (if t.btnCur.getLsbD 0 = true then s.main.startHold + 1 else 0) ∧
    t.main.modeHold = (if t.btnCur.getLsbD 1 = true then s.main.modeHold + 1 else 0)

/-- R147 to R149, R153, R155, R162, R163, R165, R168: what each turn of the reference host does, but for POLL and the countdown, which
have statements of their own. A turn performs its one operation on the block, takes itself off the front of the list and writes
the host variables named here, nothing else; DELAY performs no operation and only takes itself off. -/
def Obligations.HostTurnsPerformTheirOperations : Prop :=
  ∀ (s : State) (rest : List HostAct),
    (s.hostDoes .load → s.main.todo = .load :: rest → s.cfg.nvAddr + 1 < s.cfg.nvSize →
      ∃ u d, exec .load s.nextTurn.2 = .next u ∧ u.result = some (.duration d) ∧
        step s = .next { u with main := { s.main with duration := d, todo := rest } }) ∧
    (s.hostDoes .start → s.main.todo = .start :: rest →
      ∃ u, exec (.showMode 0#2) s.nextTurn.2 = .next u ∧ step s = .next { u with main := { s.main with
        ctl := .idle, mode := .top, startHold := 0, modeHold := 0, blink := 0, todo := rest } }) ∧
    (s.hostDoes .indicate → s.main.todo = .indicate :: rest →
      ∃ u, exec (.showMode (match s.main.mode with | .top => 0#2 | .bottom => 1#2 | .both => 2#2)) s.nextTurn.2 = .next u ∧
        step s = .next { u with main := { s.main with todo := rest } }) ∧
    (s.hostDoes .stamp → s.main.todo = .stamp :: rest →
      ∃ u, exec .now s.nextTurn.2 = .next u ∧ u.result = some (.millis s.ms) ∧
        step s = .next { u with main := { s.main with entry := s.ms, todo := rest } }) ∧
    (s.hostDoes .lampsOn → s.main.todo = .lampsOn :: rest →
      ∃ u, exec (.chan (match s.main.mode with | .top => 0b01#2 | .bottom => 0b10#2 | .both => 0b11#2)) s.nextTurn.2 = .next u ∧
        step s = .next { u with main := { s.main with ctl := .exposure, startHold := 0, blink := 0, todo := rest } }) ∧
    (s.hostDoes .lampsOff → s.main.todo = .lampsOff :: rest →
      ∃ u, exec (.chan 0b00#2) s.nextTurn.2 = .next u ∧ step s = .next { u with main := { s.main with todo := rest } }) ∧
    (s.hostDoes .commit → s.main.todo = .commit :: rest → s.cfg.nvAddr + 1 < s.cfg.nvSize →
      ∃ u, exec (.save s.main.duration) s.nextTurn.2 = .next u ∧ step s = .next { u with main := { s.main with todo := rest } }) ∧
    (∀ time dots mask, s.hostDoes (.refresh time dots mask) → s.main.todo = .refresh time dots mask :: rest →
      ∃ u, exec (.refresh time dots mask) s.nextTurn.2 = .next u ∧
        step s = .next { u with main := { s.main with blink := (s.main.blink + 1) % s.cfg.blinkMod, todo := rest } }) ∧
    (s.hostDoes .delay → s.main.todo = .delay :: rest →
      step s = .next { s.nextTurn.2 with main := { s.main with todo := rest } })

/-- R155, R136: a Mode release seen in Idle, no threshold having fired, moves Mode to its successor and puts SHOW ahead of Idle's
REFRESH and DELAY, every other host variable staying; the SHOW turn drives the lines of the Mode and takes itself off the list. -/
def Obligations.ModeCyclesOnRelease : Prop :=
  (∀ s t : State, s.hostPolls → s.main.ctl = .idle → step s = .next t →
    t.btnPrev.getLsbD 1 = true → t.btnCur.getLsbD 1 = false →
    t.main.startHold ≠ s.cfg.startHold → t.main.modeHold ≠ s.cfg.modeHold →
    (modeNumber t.main.mode).toNat = ((modeNumber s.main.mode).toNat + 1) % 3 ∧
    t.main = { s.main with
      mode := t.main.mode, startHold := t.main.startHold, modeHold := t.main.modeHold
      todo := [.indicate, .refresh s.main.duration (dotsWhenIdle s.cfg) 0b111#3, .delay] }) ∧
  (∀ (s : State) (rest : List HostAct), s.hostDoes .indicate → s.main.todo = .indicate :: rest → ∃ t, step s = .next t ∧
    t.led = (match s.main.mode with | .top => 0b01#2 | .bottom => 0b10#2 | .both => 0b11#2) ∧ t.uv = s.uv ∧
    t.main.todo = rest)

/-- R153, R165: the long Start press in Idle puts a drain, the timestamp and the lamps ahead, in that order, then Idle's own REFRESH
(R148, R152) with the `IDLE_DOTS` in force (its value open: log entry 3), and changes no other host variable; the timestamp turn
takes `MS`; the lamps' turn raises the lines of the Mode and is in Exposure with its counters at 0. -/
def Obligations.LongStartPressLeadsToExposure : Prop :=
  (∀ s t : State, s.hostPolls → s.main.ctl = .idle → step s = .next t → t.main.startHold = s.cfg.startHold →
    t.uv = s.uv ∧ t.main = { s.main with
      startHold := t.main.startHold, modeHold := t.main.modeHold
      todo := [.drain none, .stamp, .lampsOn, .refresh s.main.duration (dotsWhenIdle s.cfg) 0b111#3, .delay] }) ∧
  (∀ (s : State) (rest : List HostAct), s.hostDoes .stamp → s.main.todo = .stamp :: rest → ∃ t, step s = .next t ∧
    t.main.entry = s.ms ∧ t.uv = s.uv ∧ t.main.todo = rest) ∧
  (∀ (s : State) (rest : List HostAct), s.hostDoes .lampsOn → s.main.todo = .lampsOn :: rest → ∃ t, step s = .next t ∧
    t.uv = (match s.main.mode with | .top => 0b01#2 | .bottom => 0b10#2 | .both => 0b11#2) ∧
    t.main.ctl = .exposure ∧ t.main.startHold = 0 ∧ t.main.blink = 0 ∧ t.main.todo = rest)

/-- R154: the long Mode press in Idle, no long Start press firing, enters Time-Setup with the edit values at 0, no
drain ahead, only the REFRESH and DELAY of the Idle iteration (R148), every other host variable staying. -/
def Obligations.LongModePressLeadsToSetup : Prop :=
  ∀ s t : State, s.hostPolls → s.main.ctl = .idle → step s = .next t →
    t.main.startHold ≠ s.cfg.startHold → t.main.modeHold = s.cfg.modeHold →
    t.main = { s.main with
      ctl := .setupMin, minutes := 0, seconds := 0, blink := 0
      startHold := t.main.startHold, modeHold := t.main.modeHold
      todo := [.refresh s.main.duration (dotsWhenIdle s.cfg) 0b111#3, .delay] }

/-- R151: a drain's turn is one POLL, which is all it does to the block, so the display keeps its frame; it either reads both buttons
released, clears the hold counters and goes on into the state it leads to, whose blink starts anew but for Idle (R163), or puts a
pause and another POLL ahead (its hold counters: log entry 21). Every other host variable stays. -/
def Obligations.DrainPollsUntilReleased : Prop :=
  ∀ (s : State) (into : Option Ctl) (rest : List HostAct), s.hostDoes (.drain into) → s.main.todo = .drain into :: rest →
    ∃ u t, exec .poll s.nextTurn.2 = .next u ∧ step s = .next t ∧ t = { u with main := t.main } ∧
      (t.seg = s.seg ∧ t.digen = s.digen ∧ t.dot = s.dot ∧ t.cursor = s.cursor ∧ t.uv = s.uv) ∧
      (t.btnCur = 0b00#2 → t.main = { s.main with
        startHold := 0, modeHold := 0, todo := rest, ctl := into.getD s.main.ctl
        blink := if into = some .setupMin ∨ into = some .setupSec ∨ into = some .exposure then 0 else s.main.blink }) ∧
      (t.btnCur ≠ 0b00#2 → t.main = { s.main with
        startHold := t.main.startHold, modeHold := t.main.modeHold, todo := .delay :: .drain into :: rest })

/-- R148, R166 to R171: one Exposure iteration. It begins with a POLL that updates the hold counters and puts the countdown ahead,
with the button state it has read, and changes nothing else of the host. The countdown's turn is one NOW. The time is over when
`elapsed >= duration`; an exit fires when the time is over with Start held, or when Start was held for the threshold. What is then
ahead is the REFRESH of the whole seconds that remain, with the dot and the mask of R167, and before it only lamps-off turns and the
way out: lamps-off comes first when the time is over or an exit fires and is nowhere in the list otherwise (R172 (a)); the way out
is there exactly when an exit fires, once, after the lamps-off turns. A lamps-off turn lowers both lines and goes on with the rest of
the list. -/
def Obligations.ExposureIterationTimesTheLamps : Prop :=
  (∀ s : State, s.hostPolls → s.main.ctl = .exposure → ∃ t, step s = .next t ∧ t.uv = s.uv ∧
    t.main = { s.main with
      startHold := if t.btnCur.getLsbD 0 = true then s.main.startHold + 1 else 0
      modeHold := if t.btnCur.getLsbD 1 = true then s.main.modeHold + 1 else 0
      todo := [.countdown t.btnCur] }) ∧
  (∀ (s : State) (cur : Buttons) (rest : List HostAct), s.hostDoes (.countdown cur) → s.main.todo = .countdown cur :: rest →
    let isOver : Prop := (s.main.duration.toNat : Int) ≤ sinceEntry s / 1000
    let isExit : Prop := (isOver ∧ cur.getLsbD 0 = true) ∨ s.main.startHold = s.cfg.startHold
    let isShown : Prop := s.main.blink < s.cfg.blinkHalf
    ∃ (u t : State) (before : List HostAct) (time : Seconds) (dots : BitVec 8) (mask : BitVec 3),
      exec .now s.nextTurn.2 = .next u ∧ step s = .next t ∧
      t = { u with main := { s.main with todo := before ++ [.refresh time dots mask, .delay] ++ rest } } ∧ t.uv = s.uv ∧
      (∀ a ∈ before, a = .lampsOff ∨ a = .drain (some .idle)) ∧
      (isOver ∨ isExit → before.head? = some .lampsOff) ∧
      (.lampsOff ∈ before ↔ isOver ∨ isExit) ∧
      (.drain (some .idle) ∈ before ↔ isExit) ∧
      (isExit → ∃ offs, before = offs ++ [.drain (some .idle)] ∧ ∀ a ∈ offs, a = .lampsOff) ∧
      (time.toNat : Int) = max ((s.main.duration.toNat : Int) - sinceEntry s / 1000) 0 ∧
      (isShown → dots = s.cfg.dotSentinel) ∧ (¬ isShown → dots = 0x00#8) ∧
      (¬ isOver ∨ isShown → mask = 0b111#3) ∧ (isOver ∧ ¬ isShown → mask = 0b000#3)) ∧
  ∀ (s : State) (rest : List HostAct), s.hostDoes .lampsOff → s.main.todo = .lampsOff :: rest →
    ∃ t, step s = .next t ∧ t.uv = 0b00#2 ∧ t.main.todo = rest

/-- R166, R172 (a): `remaining` never grows while the time since entry grows, and is 0 exactly from `1000 * duration` on. -/
def Obligations.RemainingCountsDown : Prop :=
  ∀ (m : MainCtl) (c : Config) (now1 now2 : Nat),
    (((now1 : Int) - m.entry + 2 ^ c.w) % 2 ^ c.w ≤ ((now2 : Int) - m.entry + 2 ^ c.w) % 2 ^ c.w →
      m.remaining c now2 ≤ m.remaining c now1) ∧
    (m.remaining c now1 = 0 ↔ 1000 * (m.duration.toNat : Int) ≤ ((now1 : Int) - m.entry + 2 ^ c.w) % 2 ^ c.w)

/-- R158, R159, R161, R162, R164: from 0, `m` Start presses in the minutes edit; the Mode press, which keeps the minutes and puts the
drain into the seconds edit ahead; that drain, which ends with both buttons released; `k` Start presses in the seconds edit; and a
Mode press, which sets the duration `60 * m + 5 * k` and puts its SAVE next. -/
def Obligations.TimeSetupReachesItsDurations : Prop :=
  ∀ (x : MainCtl) (c : Config) (m k : Nat) (r : BitVec 6),
    c.secStep = 5 → x.minutes = 0 → x.seconds = 0 → m ≤ 9 → k ≤ 11 → r.extractLsb' 0 2 = 0b00#2 →
    let edited := (fun z => MainCtl.setupMinLogic z c 0b01#2)^[m] x
    let pressed := MainCtl.setupMinLogic edited c 0b10#2
    let drained := MainCtl.afterDrain { pressed with todo := pressed.todo.tail } (some .setupSec) r
    let chosen := (fun z => MainCtl.setupSecLogic z c 0b01#2)^[k] drained
    let done := MainCtl.setupSecLogic chosen c 0b10#2
    (pressed.minutes = m ∧ pressed.seconds = 0 ∧ pressed.todo.head? = some (.drain (some .setupSec))) ∧
    (drained.ctl = .setupSec ∧ drained.minutes = m ∧ drained.seconds = 0 ∧ drained.blink = 0) ∧
    (done.duration.toNat = 60 * m + 5 * k ∧ done.todo.head? = some .commit)

/-- R157 to R162: what one iteration in Time-Setup edits, over the machine's step (the order of its parts: log entry 19). The
duration is recomputed from the values at the iteration's start; a Start press moves the edited value on and restarts the blink; a
Mode press in the minutes edit keeps the minutes and puts the drain into the seconds edit next; a Mode press in the seconds edit takes the duration anew and puts its SAVE and
the drain into Idle next; the REFRESH and DELAY follow, and without a Mode press they are all. No other host variable changes but the
hold counters. -/
def Obligations.TimeSetupEditsByPresses : Prop :=
  ∀ s : State, s.hostPolls → s.main.minutes ≤ 9 → s.main.seconds ≤ 59 → ∃ t, step s = .next t ∧
    let startPress := t.btnCur.getLsbD 0 && !t.btnPrev.getLsbD 0
    let modePress := t.btnCur.getLsbD 1 && !t.btnPrev.getLsbD 1
    (s.main.ctl = .setupMin →
      t.main = { s.main with
        minutes := t.main.minutes, blink := t.main.blink, duration := t.main.duration
        startHold := t.main.startHold, modeHold := t.main.modeHold, todo := t.main.todo } ∧
      t.main.minutes = (if startPress then (s.main.minutes + 1) % 10 else s.main.minutes) ∧
      t.main.blink = (if startPress then 0 else s.main.blink) ∧
      t.main.duration.toNat = s.main.minutes * 60 ∧
      ∃ time dots mask,
        (modePress = true → t.main.todo = [.drain (some .setupSec), .refresh time dots mask, .delay]) ∧
        (modePress = false → t.main.todo = [.refresh time dots mask, .delay])) ∧
    (s.main.ctl = .setupSec →
      t.main = { s.main with
        seconds := t.main.seconds, blink := t.main.blink, duration := t.main.duration
        startHold := t.main.startHold, modeHold := t.main.modeHold, todo := t.main.todo } ∧
      t.main.seconds = (if startPress then (s.main.seconds + s.cfg.secStep) % 60 else s.main.seconds) ∧
      t.main.blink = (if startPress then 0 else s.main.blink) ∧
      t.main.duration.toNat = s.main.minutes * 60 + (if modePress then t.main.seconds else s.main.seconds) ∧
      ∃ time dots mask,
        (modePress = true → t.main.todo = [.commit, .drain (some .idle), .refresh time dots mask, .delay]) ∧
        (modePress = false → t.main.todo = [.refresh time dots mask, .delay]))

/-- R162: the host's commit stores its duration, the cell then reads as it, and goes on with the rest of its list. -/
def Obligations.CommitStoresTheDuration : Prop :=
  ∀ (s : State) (rest : List HostAct), s.hostDoes .commit → s.main.todo = .commit :: rest → s.cfg.nvAddr + 1 < s.cfg.nvSize →
    ∃ t, step s = .next t ∧ t.nvRead16 = some s.main.duration ∧ t.main = { s.main with todo := rest }

/-- R157, R160, R163: in Time-Setup the one REFRESH of an iteration shows the edited value computed at its start, with the `IDLE_DOTS`
in force (its value open: log entry 3) and the edited digits hidden in the second half of the blink period. -/
def Obligations.TimeSetupBlinksTheEditedDigits : Prop :=
  ∀ s : State, s.hostPolls → s.main.minutes ≤ 9 → s.main.seconds ≤ 59 → ∃ t, step s = .next t ∧
    (s.main.ctl = .setupMin → ∀ time dots mask, HostAct.refresh time dots mask ∈ t.main.todo ↔
      time.toNat = s.main.minutes * 60 ∧ dots = dotsWhenIdle s.cfg ∧
      mask = (if s.main.blink < s.cfg.blinkHalf then 0b111#3 else 0b110#3)) ∧
    (s.main.ctl = .setupSec → ∀ time dots mask, HostAct.refresh time dots mask ∈ t.main.todo ↔
      time.toNat = s.main.minutes * 60 + s.main.seconds ∧ dots = dotsWhenIdle s.cfg ∧
      mask = (if s.main.blink < s.cfg.blinkHalf then 0b111#3 else 0b001#3))

/-- R152, R156: in Idle the one REFRESH of every iteration, whatever its transition, shows the duration with all digits and the
`IDLE_DOTS` in force, which are the ones the parameters name, or the open value (log entry 3); an iteration with no threshold reached
and no Mode release does nothing else and changes no host variable but the hold counters. -/
def Obligations.IdleShowsTheDuration : Prop :=
  (∀ s : State, s.hostPolls → s.main.ctl = .idle → ∃ t, step s = .next t ∧
    ∀ time dots mask, HostAct.refresh time dots mask ∈ t.main.todo ↔
      time = s.main.duration ∧ dots = dotsWhenIdle s.cfg ∧ mask = 0b111#3) ∧
  (∀ s t : State, s.hostPolls → s.main.ctl = .idle → step s = .next t →
    t.main.startHold ≠ s.cfg.startHold → t.main.modeHold ≠ s.cfg.modeHold →
    t.btnPrev.getLsbD 1 = false ∨ t.btnCur.getLsbD 1 = true →
    t.main = { s.main with
      startHold := t.main.startHold, modeHold := t.main.modeHold
      todo := [.refresh s.main.duration (dotsWhenIdle s.cfg) 0b111#3, .delay] }) ∧
  ∀ (c : Config) (d : BitVec 8), c.idleDots = some d → dotsWhenIdle c = d

/-- R148, R163: the host's REFRESH turn renders with its operands, moves the blink counter on by one, modulo `BLINK_MOD`, and goes on
with the rest of its list. -/
def Obligations.RefreshTurnMovesTheBlinkCounter : Prop :=
  ∀ (s : State) (time : Seconds) (dots : BitVec 8) (mask : BitVec 3) (rest : List HostAct),
    s.hostDoes (.refresh time dots mask) → s.main.todo = .refresh time dots mask :: rest →
    ∃ t u, step s = .next t ∧ exec (.refresh time dots mask) s = .next u ∧
      t.seg = u.seg ∧ t.digen = u.digen ∧ t.dot = u.dot ∧ t.cursor = u.cursor ∧
      t.main = { s.main with blink := (s.main.blink + 1) % s.cfg.blinkMod, todo := rest }
end

