-- ==== Sys2Proof/Laws/State.lean ====
section
/-! SUPPORT. For every named register write of Ops, one lemma per field of State: what the field holds after it. -/

namespace Sys2Proof.Machine

variable (s : State)

/-! `answer` -/
@[simp] theorem State.answer_cfg (r : Option Result) : (s.answer r).cfg = s.cfg := rfl
@[simp] theorem State.answer_ms (r : Option Result) : (s.answer r).ms = s.ms := rfl
@[simp] theorem State.answer_fract (r : Option Result) : (s.answer r).fract = s.fract := rfl
@[simp] theorem State.answer_ie (r : Option Result) : (s.answer r).ie = s.ie := rfl
@[simp] theorem State.answer_tickPend (r : Option Result) : (s.answer r).tickPend = s.tickPend := rfl
@[simp] theorem State.answer_btnCur (r : Option Result) : (s.answer r).btnCur = s.btnCur := rfl
@[simp] theorem State.answer_btnPrev (r : Option Result) : (s.answer r).btnPrev = s.btnPrev := rfl
@[simp] theorem State.answer_btnT (r : Option Result) : (s.answer r).btnT = s.btnT := rfl
@[simp] theorem State.answer_cursor (r : Option Result) : (s.answer r).cursor = s.cursor := rfl
@[simp] theorem State.answer_digen (r : Option Result) : (s.answer r).digen = s.digen := rfl
@[simp] theorem State.answer_seg (r : Option Result) : (s.answer r).seg = s.seg := rfl
@[simp] theorem State.answer_dot (r : Option Result) : (s.answer r).dot = s.dot := rfl
@[simp] theorem State.answer_led (r : Option Result) : (s.answer r).led = s.led := rfl
@[simp] theorem State.answer_uv (r : Option Result) : (s.answer r).uv = s.uv := rfl
@[simp] theorem State.answer_nv (r : Option Result) : (s.answer r).nv = s.nv := rfl
@[simp] theorem State.answer_result (r : Option Result) : (s.answer r).result = r := rfl
@[simp] theorem State.answer_pins (r : Option Result) : (s.answer r).pins = s.pins := rfl
@[simp] theorem State.answer_sched (r : Option Result) : (s.answer r).sched = s.sched := rfl
@[simp] theorem State.answer_draws (r : Option Result) : (s.answer r).draws = s.draws := rfl
@[simp] theorem State.answer_driver (r : Option Result) : (s.answer r).driver = s.driver := rfl
@[simp] theorem State.answer_cmds (r : Option Result) : (s.answer r).cmds = s.cmds := rfl
@[simp] theorem State.answer_main (r : Option Result) : (s.answer r).main = s.main := rfl

/-! `setIe` -/
@[simp] theorem State.setIe_cfg (b : Bool) : (s.setIe b).cfg = s.cfg := rfl
@[simp] theorem State.setIe_ms (b : Bool) : (s.setIe b).ms = s.ms := rfl
@[simp] theorem State.setIe_fract (b : Bool) : (s.setIe b).fract = s.fract := rfl
@[simp] theorem State.setIe_ie (b : Bool) : (s.setIe b).ie = b := rfl
@[simp] theorem State.setIe_tickPend (b : Bool) : (s.setIe b).tickPend = s.tickPend := rfl
@[simp] theorem State.setIe_btnCur (b : Bool) : (s.setIe b).btnCur = s.btnCur := rfl
@[simp] theorem State.setIe_btnPrev (b : Bool) : (s.setIe b).btnPrev = s.btnPrev := rfl
@[simp] theorem State.setIe_btnT (b : Bool) : (s.setIe b).btnT = s.btnT := rfl
@[simp] theorem State.setIe_cursor (b : Bool) : (s.setIe b).cursor = s.cursor := rfl
@[simp] theorem State.setIe_digen (b : Bool) : (s.setIe b).digen = s.digen := rfl
@[simp] theorem State.setIe_seg (b : Bool) : (s.setIe b).seg = s.seg := rfl
@[simp] theorem State.setIe_dot (b : Bool) : (s.setIe b).dot = s.dot := rfl
@[simp] theorem State.setIe_led (b : Bool) : (s.setIe b).led = s.led := rfl
@[simp] theorem State.setIe_uv (b : Bool) : (s.setIe b).uv = s.uv := rfl
@[simp] theorem State.setIe_nv (b : Bool) : (s.setIe b).nv = s.nv := rfl
@[simp] theorem State.setIe_result (b : Bool) : (s.setIe b).result = s.result := rfl
@[simp] theorem State.setIe_pins (b : Bool) : (s.setIe b).pins = s.pins := rfl
@[simp] theorem State.setIe_sched (b : Bool) : (s.setIe b).sched = s.sched := rfl
@[simp] theorem State.setIe_draws (b : Bool) : (s.setIe b).draws = s.draws := rfl
@[simp] theorem State.setIe_driver (b : Bool) : (s.setIe b).driver = s.driver := rfl
@[simp] theorem State.setIe_cmds (b : Bool) : (s.setIe b).cmds = s.cmds := rfl
@[simp] theorem State.setIe_main (b : Bool) : (s.setIe b).main = s.main := rfl

/-! `setTickPend` -/
@[simp] theorem State.setTickPend_cfg (b : Bool) : (s.setTickPend b).cfg = s.cfg := rfl
@[simp] theorem State.setTickPend_ms (b : Bool) : (s.setTickPend b).ms = s.ms := rfl
@[simp] theorem State.setTickPend_fract (b : Bool) : (s.setTickPend b).fract = s.fract := rfl
@[simp] theorem State.setTickPend_ie (b : Bool) : (s.setTickPend b).ie = s.ie := rfl
@[simp] theorem State.setTickPend_tickPend (b : Bool) : (s.setTickPend b).tickPend = b := rfl
@[simp] theorem State.setTickPend_btnCur (b : Bool) : (s.setTickPend b).btnCur = s.btnCur := rfl
@[simp] theorem State.setTickPend_btnPrev (b : Bool) : (s.setTickPend b).btnPrev = s.btnPrev := rfl
@[simp] theorem State.setTickPend_btnT (b : Bool) : (s.setTickPend b).btnT = s.btnT := rfl
@[simp] theorem State.setTickPend_cursor (b : Bool) : (s.setTickPend b).cursor = s.cursor := rfl
@[simp] theorem State.setTickPend_digen (b : Bool) : (s.setTickPend b).digen = s.digen := rfl
@[simp] theorem State.setTickPend_seg (b : Bool) : (s.setTickPend b).seg = s.seg := rfl
@[simp] theorem State.setTickPend_dot (b : Bool) : (s.setTickPend b).dot = s.dot := rfl
@[simp] theorem State.setTickPend_led (b : Bool) : (s.setTickPend b).led = s.led := rfl
@[simp] theorem State.setTickPend_uv (b : Bool) : (s.setTickPend b).uv = s.uv := rfl
@[simp] theorem State.setTickPend_nv (b : Bool) : (s.setTickPend b).nv = s.nv := rfl
@[simp] theorem State.setTickPend_result (b : Bool) : (s.setTickPend b).result = s.result := rfl
@[simp] theorem State.setTickPend_pins (b : Bool) : (s.setTickPend b).pins = s.pins := rfl
@[simp] theorem State.setTickPend_sched (b : Bool) : (s.setTickPend b).sched = s.sched := rfl
@[simp] theorem State.setTickPend_draws (b : Bool) : (s.setTickPend b).draws = s.draws := rfl
@[simp] theorem State.setTickPend_driver (b : Bool) : (s.setTickPend b).driver = s.driver := rfl
@[simp] theorem State.setTickPend_cmds (b : Bool) : (s.setTickPend b).cmds = s.cmds := rfl
@[simp] theorem State.setTickPend_main (b : Bool) : (s.setTickPend b).main = s.main := rfl

/-! `setClock` -/
@[simp] theorem State.setClock_cfg (m f : Nat) : (s.setClock m f).cfg = s.cfg := rfl
@[simp] theorem State.setClock_ms (m f : Nat) : (s.setClock m f).ms = m := rfl
@[simp] theorem State.setClock_fract (m f : Nat) : (s.setClock m f).fract = f := rfl
@[simp] theorem State.setClock_ie (m f : Nat) : (s.setClock m f).ie = s.ie := rfl
@[simp] theorem State.setClock_tickPend (m f : Nat) : (s.setClock m f).tickPend = s.tickPend := rfl
@[simp] theorem State.setClock_btnCur (m f : Nat) : (s.setClock m f).btnCur = s.btnCur := rfl
@[simp] theorem State.setClock_btnPrev (m f : Nat) : (s.setClock m f).btnPrev = s.btnPrev := rfl
@[simp] theorem State.setClock_btnT (m f : Nat) : (s.setClock m f).btnT = s.btnT := rfl
@[simp] theorem State.setClock_cursor (m f : Nat) : (s.setClock m f).cursor = s.cursor := rfl
@[simp] theorem State.setClock_digen (m f : Nat) : (s.setClock m f).digen = s.digen := rfl
@[simp] theorem State.setClock_seg (m f : Nat) : (s.setClock m f).seg = s.seg := rfl
@[simp] theorem State.setClock_dot (m f : Nat) : (s.setClock m f).dot = s.dot := rfl
@[simp] theorem State.setClock_led (m f : Nat) : (s.setClock m f).led = s.led := rfl
@[simp] theorem State.setClock_uv (m f : Nat) : (s.setClock m f).uv = s.uv := rfl
@[simp] theorem State.setClock_nv (m f : Nat) : (s.setClock m f).nv = s.nv := rfl
@[simp] theorem State.setClock_result (m f : Nat) : (s.setClock m f).result = s.result := rfl
@[simp] theorem State.setClock_pins (m f : Nat) : (s.setClock m f).pins = s.pins := rfl
@[simp] theorem State.setClock_sched (m f : Nat) : (s.setClock m f).sched = s.sched := rfl
@[simp] theorem State.setClock_draws (m f : Nat) : (s.setClock m f).draws = s.draws := rfl
@[simp] theorem State.setClock_driver (m f : Nat) : (s.setClock m f).driver = s.driver := rfl
@[simp] theorem State.setClock_cmds (m f : Nat) : (s.setClock m f).cmds = s.cmds := rfl
@[simp] theorem State.setClock_main (m f : Nat) : (s.setClock m f).main = s.main := rfl

/-! `setButtons` -/
@[simp] theorem State.setButtons_cfg (c p : Buttons) : (s.setButtons c p).cfg = s.cfg := rfl
@[simp] theorem State.setButtons_ms (c p : Buttons) : (s.setButtons c p).ms = s.ms := rfl
@[simp] theorem State.setButtons_fract (c p : Buttons) : (s.setButtons c p).fract = s.fract := rfl
@[simp] theorem State.setButtons_ie (c p : Buttons) : (s.setButtons c p).ie = s.ie := rfl
@[simp] theorem State.setButtons_tickPend (c p : Buttons) : (s.setButtons c p).tickPend = s.tickPend := rfl
@[simp] theorem State.setButtons_btnCur (c p : Buttons) : (s.setButtons c p).btnCur = c := rfl
@[simp] theorem State.setButtons_btnPrev (c p : Buttons) : (s.setButtons c p).btnPrev = p := rfl
@[simp] theorem State.setButtons_btnT (c p : Buttons) : (s.setButtons c p).btnT = s.btnT := rfl
@[simp] theorem State.setButtons_cursor (c p : Buttons) : (s.setButtons c p).cursor = s.cursor := rfl
@[simp] theorem State.setButtons_digen (c p : Buttons) : (s.setButtons c p).digen = s.digen := rfl
@[simp] theorem State.setButtons_seg (c p : Buttons) : (s.setButtons c p).seg = s.seg := rfl
@[simp] theorem State.setButtons_dot (c p : Buttons) : (s.setButtons c p).dot = s.dot := rfl
@[simp] theorem State.setButtons_led (c p : Buttons) : (s.setButtons c p).led = s.led := rfl
@[simp] theorem State.setButtons_uv (c p : Buttons) : (s.setButtons c p).uv = s.uv := rfl
@[simp] theorem State.setButtons_nv (c p : Buttons) : (s.setButtons c p).nv = s.nv := rfl
@[simp] theorem State.setButtons_result (c p : Buttons) : (s.setButtons c p).result = s.result := rfl
@[simp] theorem State.setButtons_pins (c p : Buttons) : (s.setButtons c p).pins = s.pins := rfl
@[simp] theorem State.setButtons_sched (c p : Buttons) : (s.setButtons c p).sched = s.sched := rfl
@[simp] theorem State.setButtons_draws (c p : Buttons) : (s.setButtons c p).draws = s.draws := rfl
@[simp] theorem State.setButtons_driver (c p : Buttons) : (s.setButtons c p).driver = s.driver := rfl
@[simp] theorem State.setButtons_cmds (c p : Buttons) : (s.setButtons c p).cmds = s.cmds := rfl
@[simp] theorem State.setButtons_main (c p : Buttons) : (s.setButtons c p).main = s.main := rfl

/-! `setBtnT` -/
@[simp] theorem State.setBtnT_cfg (t : Nat) : (s.setBtnT t).cfg = s.cfg := rfl
@[simp] theorem State.setBtnT_ms (t : Nat) : (s.setBtnT t).ms = s.ms := rfl
@[simp] theorem State.setBtnT_fract (t : Nat) : (s.setBtnT t).fract = s.fract := rfl
@[simp] theorem State.setBtnT_ie (t : Nat) : (s.setBtnT t).ie = s.ie := rfl
@[simp] theorem State.setBtnT_tickPend (t : Nat) : (s.setBtnT t).tickPend = s.tickPend := rfl
@[simp] theorem State.setBtnT_btnCur (t : Nat) : (s.setBtnT t).btnCur = s.btnCur := rfl
@[simp] theorem State.setBtnT_btnPrev (t : Nat) : (s.setBtnT t).btnPrev = s.btnPrev := rfl
@[simp] theorem State.setBtnT_btnT (t : Nat) : (s.setBtnT t).btnT = t := rfl
@[simp] theorem State.setBtnT_cursor (t : Nat) : (s.setBtnT t).cursor = s.cursor := rfl
@[simp] theorem State.setBtnT_digen (t : Nat) : (s.setBtnT t).digen = s.digen := rfl
@[simp] theorem State.setBtnT_seg (t : Nat) : (s.setBtnT t).seg = s.seg := rfl
@[simp] theorem State.setBtnT_dot (t : Nat) : (s.setBtnT t).dot = s.dot := rfl
@[simp] theorem State.setBtnT_led (t : Nat) : (s.setBtnT t).led = s.led := rfl
@[simp] theorem State.setBtnT_uv (t : Nat) : (s.setBtnT t).uv = s.uv := rfl
@[simp] theorem State.setBtnT_nv (t : Nat) : (s.setBtnT t).nv = s.nv := rfl
@[simp] theorem State.setBtnT_result (t : Nat) : (s.setBtnT t).result = s.result := rfl
@[simp] theorem State.setBtnT_pins (t : Nat) : (s.setBtnT t).pins = s.pins := rfl
@[simp] theorem State.setBtnT_sched (t : Nat) : (s.setBtnT t).sched = s.sched := rfl
@[simp] theorem State.setBtnT_draws (t : Nat) : (s.setBtnT t).draws = s.draws := rfl
@[simp] theorem State.setBtnT_driver (t : Nat) : (s.setBtnT t).driver = s.driver := rfl
@[simp] theorem State.setBtnT_cmds (t : Nat) : (s.setBtnT t).cmds = s.cmds := rfl
@[simp] theorem State.setBtnT_main (t : Nat) : (s.setBtnT t).main = s.main := rfl

/-! `setFrame` -/
@[simp] theorem State.setFrame_cfg (g : BitVec 7) (e : BitVec 3) (d : BitVec 1) (i : Fin 3) : (s.setFrame g e d i).cfg = s.cfg := rfl
@[simp] theorem State.setFrame_ms (g : BitVec 7) (e : BitVec 3) (d : BitVec 1) (i : Fin 3) : (s.setFrame g e d i).ms = s.ms := rfl
@[simp] theorem State.setFrame_fract (g : BitVec 7) (e : BitVec 3) (d : BitVec 1) (i : Fin 3) : (s.setFrame g e d i).fract = s.fract := rfl
@[simp] theorem State.setFrame_ie (g : BitVec 7) (e : BitVec 3) (d : BitVec 1) (i : Fin 3) : (s.setFrame g e d i).ie = s.ie := rfl
@[simp] theorem State.setFrame_tickPend (g : BitVec 7) (e : BitVec 3) (d : BitVec 1) (i : Fin 3) : (s.setFrame g e d i).tickPend = s.tickPend := rfl
@[simp] theorem State.setFrame_btnCur (g : BitVec 7) (e : BitVec 3) (d : BitVec 1) (i : Fin 3) : (s.setFrame g e d i).btnCur = s.btnCur := rfl
@[simp] theorem State.setFrame_btnPrev (g : BitVec 7) (e : BitVec 3) (d : BitVec 1) (i : Fin 3) : (s.setFrame g e d i).btnPrev = s.btnPrev := rfl
@[simp] theorem State.setFrame_btnT (g : BitVec 7) (e : BitVec 3) (d : BitVec 1) (i : Fin 3) : (s.setFrame g e d i).btnT = s.btnT := rfl
@[simp] theorem State.setFrame_cursor (g : BitVec 7) (e : BitVec 3) (d : BitVec 1) (i : Fin 3) : (s.setFrame g e d i).cursor = i := rfl
@[simp] theorem State.setFrame_digen (g : BitVec 7) (e : BitVec 3) (d : BitVec 1) (i : Fin 3) : (s.setFrame g e d i).digen = e := rfl
@[simp] theorem State.setFrame_seg (g : BitVec 7) (e : BitVec 3) (d : BitVec 1) (i : Fin 3) : (s.setFrame g e d i).seg = g := rfl
@[simp] theorem State.setFrame_dot (g : BitVec 7) (e : BitVec 3) (d : BitVec 1) (i : Fin 3) : (s.setFrame g e d i).dot = d := rfl
@[simp] theorem State.setFrame_led (g : BitVec 7) (e : BitVec 3) (d : BitVec 1) (i : Fin 3) : (s.setFrame g e d i).led = s.led := rfl
@[simp] theorem State.setFrame_uv (g : BitVec 7) (e : BitVec 3) (d : BitVec 1) (i : Fin 3) : (s.setFrame g e d i).uv = s.uv := rfl
@[simp] theorem State.setFrame_nv (g : BitVec 7) (e : BitVec 3) (d : BitVec 1) (i : Fin 3) : (s.setFrame g e d i).nv = s.nv := rfl
@[simp] theorem State.setFrame_result (g : BitVec 7) (e : BitVec 3) (d : BitVec 1) (i : Fin 3) : (s.setFrame g e d i).result = s.result := rfl
@[simp] theorem State.setFrame_pins (g : BitVec 7) (e : BitVec 3) (d : BitVec 1) (i : Fin 3) : (s.setFrame g e d i).pins = s.pins := rfl
@[simp] theorem State.setFrame_sched (g : BitVec 7) (e : BitVec 3) (d : BitVec 1) (i : Fin 3) : (s.setFrame g e d i).sched = s.sched := rfl
@[simp] theorem State.setFrame_draws (g : BitVec 7) (e : BitVec 3) (d : BitVec 1) (i : Fin 3) : (s.setFrame g e d i).draws = s.draws := rfl
@[simp] theorem State.setFrame_driver (g : BitVec 7) (e : BitVec 3) (d : BitVec 1) (i : Fin 3) : (s.setFrame g e d i).driver = s.driver := rfl
@[simp] theorem State.setFrame_cmds (g : BitVec 7) (e : BitVec 3) (d : BitVec 1) (i : Fin 3) : (s.setFrame g e d i).cmds = s.cmds := rfl
@[simp] theorem State.setFrame_main (g : BitVec 7) (e : BitVec 3) (d : BitVec 1) (i : Fin 3) : (s.setFrame g e d i).main = s.main := rfl

/-! `setLed` -/
@[simp] theorem State.setLed_cfg (v : BitVec 2) : (s.setLed v).cfg = s.cfg := rfl
@[simp] theorem State.setLed_ms (v : BitVec 2) : (s.setLed v).ms = s.ms := rfl
@[simp] theorem State.setLed_fract (v : BitVec 2) : (s.setLed v).fract = s.fract := rfl
@[simp] theorem State.setLed_ie (v : BitVec 2) : (s.setLed v).ie = s.ie := rfl
@[simp] theorem State.setLed_tickPend (v : BitVec 2) : (s.setLed v).tickPend = s.tickPend := rfl
@[simp] theorem State.setLed_btnCur (v : BitVec 2) : (s.setLed v).btnCur = s.btnCur := rfl
@[simp] theorem State.setLed_btnPrev (v : BitVec 2) : (s.setLed v).btnPrev = s.btnPrev := rfl
@[simp] theorem State.setLed_btnT (v : BitVec 2) : (s.setLed v).btnT = s.btnT := rfl
@[simp] theorem State.setLed_cursor (v : BitVec 2) : (s.setLed v).cursor = s.cursor := rfl
@[simp] theorem State.setLed_digen (v : BitVec 2) : (s.setLed v).digen = s.digen := rfl
@[simp] theorem State.setLed_seg (v : BitVec 2) : (s.setLed v).seg = s.seg := rfl
@[simp] theorem State.setLed_dot (v : BitVec 2) : (s.setLed v).dot = s.dot := rfl
@[simp] theorem State.setLed_led (v : BitVec 2) : (s.setLed v).led = v := rfl
@[simp] theorem State.setLed_uv (v : BitVec 2) : (s.setLed v).uv = s.uv := rfl
@[simp] theorem State.setLed_nv (v : BitVec 2) : (s.setLed v).nv = s.nv := rfl
@[simp] theorem State.setLed_result (v : BitVec 2) : (s.setLed v).result = s.result := rfl
@[simp] theorem State.setLed_pins (v : BitVec 2) : (s.setLed v).pins = s.pins := rfl
@[simp] theorem State.setLed_sched (v : BitVec 2) : (s.setLed v).sched = s.sched := rfl
@[simp] theorem State.setLed_draws (v : BitVec 2) : (s.setLed v).draws = s.draws := rfl
@[simp] theorem State.setLed_driver (v : BitVec 2) : (s.setLed v).driver = s.driver := rfl
@[simp] theorem State.setLed_cmds (v : BitVec 2) : (s.setLed v).cmds = s.cmds := rfl
@[simp] theorem State.setLed_main (v : BitVec 2) : (s.setLed v).main = s.main := rfl

/-! `setUv` -/
@[simp] theorem State.setUv_cfg (v : BitVec 2) : (s.setUv v).cfg = s.cfg := rfl
@[simp] theorem State.setUv_ms (v : BitVec 2) : (s.setUv v).ms = s.ms := rfl
@[simp] theorem State.setUv_fract (v : BitVec 2) : (s.setUv v).fract = s.fract := rfl
@[simp] theorem State.setUv_ie (v : BitVec 2) : (s.setUv v).ie = s.ie := rfl
@[simp] theorem State.setUv_tickPend (v : BitVec 2) : (s.setUv v).tickPend = s.tickPend := rfl
@[simp] theorem State.setUv_btnCur (v : BitVec 2) : (s.setUv v).btnCur = s.btnCur := rfl
@[simp] theorem State.setUv_btnPrev (v : BitVec 2) : (s.setUv v).btnPrev = s.btnPrev := rfl
@[simp] theorem State.setUv_btnT (v : BitVec 2) : (s.setUv v).btnT = s.btnT := rfl
@[simp] theorem State.setUv_cursor (v : BitVec 2) : (s.setUv v).cursor = s.cursor := rfl
@[simp] theorem State.setUv_digen (v : BitVec 2) : (s.setUv v).digen = s.digen := rfl
@[simp] theorem State.setUv_seg (v : BitVec 2) : (s.setUv v).seg = s.seg := rfl
@[simp] theorem State.setUv_dot (v : BitVec 2) : (s.setUv v).dot = s.dot := rfl
@[simp] theorem State.setUv_led (v : BitVec 2) : (s.setUv v).led = s.led := rfl
@[simp] theorem State.setUv_uv (v : BitVec 2) : (s.setUv v).uv = v := rfl
@[simp] theorem State.setUv_nv (v : BitVec 2) : (s.setUv v).nv = s.nv := rfl
@[simp] theorem State.setUv_result (v : BitVec 2) : (s.setUv v).result = s.result := rfl
@[simp] theorem State.setUv_pins (v : BitVec 2) : (s.setUv v).pins = s.pins := rfl
@[simp] theorem State.setUv_sched (v : BitVec 2) : (s.setUv v).sched = s.sched := rfl
@[simp] theorem State.setUv_draws (v : BitVec 2) : (s.setUv v).draws = s.draws := rfl
@[simp] theorem State.setUv_driver (v : BitVec 2) : (s.setUv v).driver = s.driver := rfl
@[simp] theorem State.setUv_cmds (v : BitVec 2) : (s.setUv v).cmds = s.cmds := rfl
@[simp] theorem State.setUv_main (v : BitVec 2) : (s.setUv v).main = s.main := rfl

/-! `setNv` -/
@[simp] theorem State.setNv_cfg (m : Memory) : (s.setNv m).cfg = s.cfg := rfl
@[simp] theorem State.setNv_ms (m : Memory) : (s.setNv m).ms = s.ms := rfl
@[simp] theorem State.setNv_fract (m : Memory) : (s.setNv m).fract = s.fract := rfl
@[simp] theorem State.setNv_ie (m : Memory) : (s.setNv m).ie = s.ie := rfl
@[simp] theorem State.setNv_tickPend (m : Memory) : (s.setNv m).tickPend = s.tickPend := rfl
@[simp] theorem State.setNv_btnCur (m : Memory) : (s.setNv m).btnCur = s.btnCur := rfl
@[simp] theorem State.setNv_btnPrev (m : Memory) : (s.setNv m).btnPrev = s.btnPrev := rfl
@[simp] theorem State.setNv_btnT (m : Memory) : (s.setNv m).btnT = s.btnT := rfl
@[simp] theorem State.setNv_cursor (m : Memory) : (s.setNv m).cursor = s.cursor := rfl
@[simp] theorem State.setNv_digen (m : Memory) : (s.setNv m).digen = s.digen := rfl
@[simp] theorem State.setNv_seg (m : Memory) : (s.setNv m).seg = s.seg := rfl
@[simp] theorem State.setNv_dot (m : Memory) : (s.setNv m).dot = s.dot := rfl
@[simp] theorem State.setNv_led (m : Memory) : (s.setNv m).led = s.led := rfl
@[simp] theorem State.setNv_uv (m : Memory) : (s.setNv m).uv = s.uv := rfl
@[simp] theorem State.setNv_nv (m : Memory) : (s.setNv m).nv = m := rfl
@[simp] theorem State.setNv_result (m : Memory) : (s.setNv m).result = s.result := rfl
@[simp] theorem State.setNv_pins (m : Memory) : (s.setNv m).pins = s.pins := rfl
@[simp] theorem State.setNv_sched (m : Memory) : (s.setNv m).sched = s.sched := rfl
@[simp] theorem State.setNv_draws (m : Memory) : (s.setNv m).draws = s.draws := rfl
@[simp] theorem State.setNv_driver (m : Memory) : (s.setNv m).driver = s.driver := rfl
@[simp] theorem State.setNv_cmds (m : Memory) : (s.setNv m).cmds = s.cmds := rfl
@[simp] theorem State.setNv_main (m : Memory) : (s.setNv m).main = s.main := rfl

/-! `setPins` -/
@[simp] theorem State.setPins_cfg (p : Option Pins) : (s.setPins p).cfg = s.cfg := rfl
@[simp] theorem State.setPins_ms (p : Option Pins) : (s.setPins p).ms = s.ms := rfl
@[simp] theorem State.setPins_fract (p : Option Pins) : (s.setPins p).fract = s.fract := rfl
@[simp] theorem State.setPins_ie (p : Option Pins) : (s.setPins p).ie = s.ie := rfl
@[simp] theorem State.setPins_tickPend (p : Option Pins) : (s.setPins p).tickPend = s.tickPend := rfl
@[simp] theorem State.setPins_btnCur (p : Option Pins) : (s.setPins p).btnCur = s.btnCur := rfl
@[simp] theorem State.setPins_btnPrev (p : Option Pins) : (s.setPins p).btnPrev = s.btnPrev := rfl
@[simp] theorem State.setPins_btnT (p : Option Pins) : (s.setPins p).btnT = s.btnT := rfl
@[simp] theorem State.setPins_cursor (p : Option Pins) : (s.setPins p).cursor = s.cursor := rfl
@[simp] theorem State.setPins_digen (p : Option Pins) : (s.setPins p).digen = s.digen := rfl
@[simp] theorem State.setPins_seg (p : Option Pins) : (s.setPins p).seg = s.seg := rfl
@[simp] theorem State.setPins_dot (p : Option Pins) : (s.setPins p).dot = s.dot := rfl
@[simp] theorem State.setPins_led (p : Option Pins) : (s.setPins p).led = s.led := rfl
@[simp] theorem State.setPins_uv (p : Option Pins) : (s.setPins p).uv = s.uv := rfl
@[simp] theorem State.setPins_nv (p : Option Pins) : (s.setPins p).nv = s.nv := rfl
@[simp] theorem State.setPins_result (p : Option Pins) : (s.setPins p).result = s.result := rfl
@[simp] theorem State.setPins_pins (p : Option Pins) : (s.setPins p).pins = p := rfl
@[simp] theorem State.setPins_sched (p : Option Pins) : (s.setPins p).sched = s.sched := rfl
@[simp] theorem State.setPins_draws (p : Option Pins) : (s.setPins p).draws = s.draws := rfl
@[simp] theorem State.setPins_driver (p : Option Pins) : (s.setPins p).driver = s.driver := rfl
@[simp] theorem State.setPins_cmds (p : Option Pins) : (s.setPins p).cmds = s.cmds := rfl
@[simp] theorem State.setPins_main (p : Option Pins) : (s.setPins p).main = s.main := rfl

/-! `setSched` -/
@[simp] theorem State.setSched_cfg (ts : List Turn) : (s.setSched ts).cfg = s.cfg := rfl
@[simp] theorem State.setSched_ms (ts : List Turn) : (s.setSched ts).ms = s.ms := rfl
@[simp] theorem State.setSched_fract (ts : List Turn) : (s.setSched ts).fract = s.fract := rfl
@[simp] theorem State.setSched_ie (ts : List Turn) : (s.setSched ts).ie = s.ie := rfl
@[simp] theorem State.setSched_tickPend (ts : List Turn) : (s.setSched ts).tickPend = s.tickPend := rfl
@[simp] theorem State.setSched_btnCur (ts : List Turn) : (s.setSched ts).btnCur = s.btnCur := rfl
@[simp] theorem State.setSched_btnPrev (ts : List Turn) : (s.setSched ts).btnPrev = s.btnPrev := rfl
@[simp] theorem State.setSched_btnT (ts : List Turn) : (s.setSched ts).btnT = s.btnT := rfl
@[simp] theorem State.setSched_cursor (ts : List Turn) : (s.setSched ts).cursor = s.cursor := rfl
@[simp] theorem State.setSched_digen (ts : List Turn) : (s.setSched ts).digen = s.digen := rfl
@[simp] theorem State.setSched_seg (ts : List Turn) : (s.setSched ts).seg = s.seg := rfl
@[simp] theorem State.setSched_dot (ts : List Turn) : (s.setSched ts).dot = s.dot := rfl
@[simp] theorem State.setSched_led (ts : List Turn) : (s.setSched ts).led = s.led := rfl
@[simp] theorem State.setSched_uv (ts : List Turn) : (s.setSched ts).uv = s.uv := rfl
@[simp] theorem State.setSched_nv (ts : List Turn) : (s.setSched ts).nv = s.nv := rfl
@[simp] theorem State.setSched_result (ts : List Turn) : (s.setSched ts).result = s.result := rfl
@[simp] theorem State.setSched_pins (ts : List Turn) : (s.setSched ts).pins = s.pins := rfl
@[simp] theorem State.setSched_sched (ts : List Turn) : (s.setSched ts).sched = ts := rfl
@[simp] theorem State.setSched_draws (ts : List Turn) : (s.setSched ts).draws = s.draws := rfl
@[simp] theorem State.setSched_driver (ts : List Turn) : (s.setSched ts).driver = s.driver := rfl
@[simp] theorem State.setSched_cmds (ts : List Turn) : (s.setSched ts).cmds = s.cmds := rfl
@[simp] theorem State.setSched_main (ts : List Turn) : (s.setSched ts).main = s.main := rfl

/-! `setCmds` -/
@[simp] theorem State.setCmds_cfg (ws : List CommandWord) : (s.setCmds ws).cfg = s.cfg := rfl
@[simp] theorem State.setCmds_ms (ws : List CommandWord) : (s.setCmds ws).ms = s.ms := rfl
@[simp] theorem State.setCmds_fract (ws : List CommandWord) : (s.setCmds ws).fract = s.fract := rfl
@[simp] theorem State.setCmds_ie (ws : List CommandWord) : (s.setCmds ws).ie = s.ie := rfl
@[simp] theorem State.setCmds_tickPend (ws : List CommandWord) : (s.setCmds ws).tickPend = s.tickPend := rfl
@[simp] theorem State.setCmds_btnCur (ws : List CommandWord) : (s.setCmds ws).btnCur = s.btnCur := rfl
@[simp] theorem State.setCmds_btnPrev (ws : List CommandWord) : (s.setCmds ws).btnPrev = s.btnPrev := rfl
@[simp] theorem State.setCmds_btnT (ws : List CommandWord) : (s.setCmds ws).btnT = s.btnT := rfl
@[simp] theorem State.setCmds_cursor (ws : List CommandWord) : (s.setCmds ws).cursor = s.cursor := rfl
@[simp] theorem State.setCmds_digen (ws : List CommandWord) : (s.setCmds ws).digen = s.digen := rfl
@[simp] theorem State.setCmds_seg (ws : List CommandWord) : (s.setCmds ws).seg = s.seg := rfl
@[simp] theorem State.setCmds_dot (ws : List CommandWord) : (s.setCmds ws).dot = s.dot := rfl
@[simp] theorem State.setCmds_led (ws : List CommandWord) : (s.setCmds ws).led = s.led := rfl
@[simp] theorem State.setCmds_uv (ws : List CommandWord) : (s.setCmds ws).uv = s.uv := rfl
@[simp] theorem State.setCmds_nv (ws : List CommandWord) : (s.setCmds ws).nv = s.nv := rfl
@[simp] theorem State.setCmds_result (ws : List CommandWord) : (s.setCmds ws).result = s.result := rfl
@[simp] theorem State.setCmds_pins (ws : List CommandWord) : (s.setCmds ws).pins = s.pins := rfl
@[simp] theorem State.setCmds_sched (ws : List CommandWord) : (s.setCmds ws).sched = s.sched := rfl
@[simp] theorem State.setCmds_draws (ws : List CommandWord) : (s.setCmds ws).draws = s.draws := rfl
@[simp] theorem State.setCmds_driver (ws : List CommandWord) : (s.setCmds ws).driver = s.driver := rfl
@[simp] theorem State.setCmds_cmds (ws : List CommandWord) : (s.setCmds ws).cmds = ws := rfl
@[simp] theorem State.setCmds_main (ws : List CommandWord) : (s.setCmds ws).main = s.main := rfl

/-! `drawn` -/
@[simp] theorem State.drawn_cfg : (s.drawn).cfg = s.cfg := rfl
@[simp] theorem State.drawn_ms : (s.drawn).ms = s.ms := rfl
@[simp] theorem State.drawn_fract : (s.drawn).fract = s.fract := rfl
@[simp] theorem State.drawn_ie : (s.drawn).ie = s.ie := rfl
@[simp] theorem State.drawn_tickPend : (s.drawn).tickPend = s.tickPend := rfl
@[simp] theorem State.drawn_btnCur : (s.drawn).btnCur = s.btnCur := rfl
@[simp] theorem State.drawn_btnPrev : (s.drawn).btnPrev = s.btnPrev := rfl
@[simp] theorem State.drawn_btnT : (s.drawn).btnT = s.btnT := rfl
@[simp] theorem State.drawn_cursor : (s.drawn).cursor = s.cursor := rfl
@[simp] theorem State.drawn_digen : (s.drawn).digen = s.digen := rfl
@[simp] theorem State.drawn_seg : (s.drawn).seg = s.seg := rfl
@[simp] theorem State.drawn_dot : (s.drawn).dot = s.dot := rfl
@[simp] theorem State.drawn_led : (s.drawn).led = s.led := rfl
@[simp] theorem State.drawn_uv : (s.drawn).uv = s.uv := rfl
@[simp] theorem State.drawn_nv : (s.drawn).nv = s.nv := rfl
@[simp] theorem State.drawn_result : (s.drawn).result = s.result := rfl
@[simp] theorem State.drawn_pins : (s.drawn).pins = s.pins := rfl
@[simp] theorem State.drawn_sched : (s.drawn).sched = s.sched := rfl
@[simp] theorem State.drawn_draws : (s.drawn).draws = s.draws + 1 := rfl
@[simp] theorem State.drawn_driver : (s.drawn).driver = s.driver := rfl
@[simp] theorem State.drawn_cmds : (s.drawn).cmds = s.cmds := rfl
@[simp] theorem State.drawn_main : (s.drawn).main = s.main := rfl

/-! `setMain` -/
@[simp] theorem State.setMain_cfg (m : MainCtl) : (s.setMain m).cfg = s.cfg := rfl
@[simp] theorem State.setMain_ms (m : MainCtl) : (s.setMain m).ms = s.ms := rfl
@[simp] theorem State.setMain_fract (m : MainCtl) : (s.setMain m).fract = s.fract := rfl
@[simp] theorem State.setMain_ie (m : MainCtl) : (s.setMain m).ie = s.ie := rfl
@[simp] theorem State.setMain_tickPend (m : MainCtl) : (s.setMain m).tickPend = s.tickPend := rfl
@[simp] theorem State.setMain_btnCur (m : MainCtl) : (s.setMain m).btnCur = s.btnCur := rfl
@[simp] theorem State.setMain_btnPrev (m : MainCtl) : (s.setMain m).btnPrev = s.btnPrev := rfl
@[simp] theorem State.setMain_btnT (m : MainCtl) : (s.setMain m).btnT = s.btnT := rfl
@[simp] theorem State.setMain_cursor (m : MainCtl) : (s.setMain m).cursor = s.cursor := rfl
@[simp] theorem State.setMain_digen (m : MainCtl) : (s.setMain m).digen = s.digen := rfl
@[simp] theorem State.setMain_seg (m : MainCtl) : (s.setMain m).seg = s.seg := rfl
@[simp] theorem State.setMain_dot (m : MainCtl) : (s.setMain m).dot = s.dot := rfl
@[simp] theorem State.setMain_led (m : MainCtl) : (s.setMain m).led = s.led := rfl
@[simp] theorem State.setMain_uv (m : MainCtl) : (s.setMain m).uv = s.uv := rfl
@[simp] theorem State.setMain_nv (m : MainCtl) : (s.setMain m).nv = s.nv := rfl
@[simp] theorem State.setMain_result (m : MainCtl) : (s.setMain m).result = s.result := rfl
@[simp] theorem State.setMain_pins (m : MainCtl) : (s.setMain m).pins = s.pins := rfl
@[simp] theorem State.setMain_sched (m : MainCtl) : (s.setMain m).sched = s.sched := rfl
@[simp] theorem State.setMain_draws (m : MainCtl) : (s.setMain m).draws = s.draws := rfl
@[simp] theorem State.setMain_driver (m : MainCtl) : (s.setMain m).driver = s.driver := rfl
@[simp] theorem State.setMain_cmds (m : MainCtl) : (s.setMain m).cmds = s.cmds := rfl
@[simp] theorem State.setMain_main (m : MainCtl) : (s.setMain m).main = m := rfl

end Sys2Proof.Machine
end

