-- ==== Sys2Proof/Laws/Memory.lean ====
section
/-! SUPPORT. The laws of the non-volatile store: read after write, the canonical form is kept, and what LOAD's and SAVE's shared
reads and writes of 16 bits do. -/

namespace Sys2Proof.Machine

theorem Memory.read_write (m : Memory) (a x : Nat) (b : Byte) :
    (m.write a b).read x = if x = a then b else m.read x := by
  induction m with
  | nil => simp [Memory.write, Memory.read]
  | cons c m ih =>
    unfold Memory.write
    split
    · simp [Memory.read]
    · split
      · subst_vars
        simp only [Memory.read]
        split <;> rfl
      · rename_i h1 h2
        simp only [Memory.read, ih]
        by_cases hx : x = c.1
        · simp [hx]
          intro h
          exact absurd h.symm h2
        · simp [hx]

@[simp] theorem Memory.read_write_same (m : Memory) (a : Nat) (b : Byte) : (m.write a b).read a = b := by
  simp [Memory.read_write]

theorem Memory.read_write_ne (m : Memory) {a x : Nat} (b : Byte) (h : x ≠ a) : (m.write a b).read x = m.read x := by
  simp [Memory.read_write, h]

/-- Every listed offset of the new store was listed before or is the one written. -/
theorem Memory.mem_write {m : Memory} {a : Nat} {b : Byte} {c : Host.Cell} (h : c ∈ m.write a b) : c ∈ m ∨ c = (a, b) := by
  induction m with
  | nil => simpa [Memory.write] using h
  | cons d m ih =>
    unfold Memory.write at h
    split at h
    · simp only [List.mem_cons] at h ⊢
      tauto
    · split at h
      · simp only [List.mem_cons] at h ⊢
        tauto
      · simp only [List.mem_cons] at h ⊢
        rcases h with h | h
        · tauto
        · rcases ih h with h | h <;> tauto

theorem Memory.wf_write {m : Memory} (a : Nat) (b : Byte) (h : m.wf) : (m.write a b).wf := by
  induction m with
  | nil => simp [Memory.write, Memory.wf]
  | cons c m ih =>
    have hc := List.pairwise_cons.mp h
    unfold Memory.write
    split
    · rename_i h1
      refine List.pairwise_cons.mpr ⟨?_, h⟩
      intro d hd
      rcases List.mem_cons.mp hd with rfl | hd
      · exact h1
      · exact lt_trans h1 (hc.1 d hd)
    · split
      · rename_i h2
        exact List.pairwise_cons.mpr ⟨fun d hd => h2 ▸ hc.1 d hd, hc.2⟩
      · rename_i h1 h2
        refine List.pairwise_cons.mpr ⟨fun d hd => ?_, ih hc.2⟩
        rcases Memory.mem_write hd with hd | rfl
        · exact hc.1 d hd
        · show c.1 < a
          omega

theorem Memory.wf_writeBytes {m : Memory} (a : Nat) (bs : List Byte) (h : m.wf) : (m.writeBytes a bs).wf := by
  induction bs generalizing m a with
  | nil => exact h
  | cons b bs ih => exact ih (a + 1) (Memory.wf_write a b h)

theorem State.memWrite_wf {s t : State} {a : Nat} {bs : List Byte} (h : s.memWrite a bs = some t) (hw : s.nv.wf) : t.nv.wf := by
  unfold State.memWrite at h
  split at h
  · cases h
    exact Memory.wf_writeBytes a bs hw
  · cases h

theorem reset_nv_wf : State.reset.nv.wf := List.Pairwise.nil

@[simp] theorem split_length (e : Endian) (v : Seconds) : (split e v).length = 2 := by cases e <;> rfl

theorem assemble_split (e : Endian) (v : Seconds) :
    assemble e ((split e v).getD 0 0) ((split e v).getD 1 0) = v := by
  cases e <;>
  · simp only [split, assemble, List.getD_cons_zero, List.getD_cons_succ]
    refine BitVec.eq_of_getLsbD_eq fun i hi => ?_
    rw [BitVec.getLsbD_append]
    split
    · simp_all
    · simp only [BitVec.getLsbD_extractLsb']
      rename_i h
      have : 8 + (i - 8) = i := by omega
      simp [this, show i - 8 < 8 by omega]

/-- All `NVRead16` can do: the two bytes at `NV_ADDR` in the platform's order, if the store has them (R54). -/
theorem State.nvRead16_eq (s : State) :
    s.nvRead16 = if s.cfg.nvAddr + 1 < s.cfg.nvSize then
      some (assemble s.cfg.nvEndian (s.nv.read s.cfg.nvAddr) (s.nv.read (s.cfg.nvAddr + 1))) else none := by
  unfold State.nvRead16 State.memRead
  by_cases h : s.cfg.nvAddr + 1 < s.cfg.nvSize
  · have h' : s.cfg.nvAddr + 2 ≤ s.cfg.nvSize := h
    simp [h, h', List.range_succ]
  · have h' : ¬ s.cfg.nvAddr + 2 ≤ s.cfg.nvSize := h
    simp [h, h']

/-- All `NVWrite16` can do: both bytes stored, if the store has them (R54). -/
theorem State.nvWrite16_eq (s : State) (v : Seconds) :
    s.nvWrite16 v = if s.cfg.nvAddr + 1 < s.cfg.nvSize then
      some (s.setNv ((s.nv.write s.cfg.nvAddr ((split s.cfg.nvEndian v).getD 0 0)).write (s.cfg.nvAddr + 1)
        ((split s.cfg.nvEndian v).getD 1 0))) else none := by
  unfold State.nvWrite16 State.memWrite
  rw [split_length]
  by_cases h : s.cfg.nvAddr + 1 < s.cfg.nvSize
  · have h' : s.cfg.nvAddr + 2 ≤ s.cfg.nvSize := h
    simp only [h, h', if_true]
    cases s.cfg.nvEndian <;> rfl
  · have h' : ¬ s.cfg.nvAddr + 2 ≤ s.cfg.nvSize := h
    simp [h, h']

end Sys2Proof.Machine
end

