-- ==== Sys2Proof/Laws/Ops.lean ====
section
/-! SUPPORT. One lemma for each shared operation over the clock and the pins that says all it can do. -/

namespace Sys2Proof.Machine

theorem addW_lt (w a b : Nat) : addW w a b < 2 ^ w := Nat.mod_lt _ (Nat.two_pow_pos w)

theorem subW_lt (w a b : Nat) : subW w a b < 2 ^ w := by
  have hp : (0 : Int) < ((2 ^ w : Nat) : Int) := by exact_mod_cast Nat.two_pow_pos w
  have h0 := Int.emod_nonneg ((a : Int) - b) hp.ne'
  have h1 := Int.emod_lt_of_pos ((a : Int) - b) hp
  unfold subW
  omega

/-- `-_W` is the integer difference modulo `2^W` (R7). -/
theorem subW_cast (w a b : Nat) : (subW w a b : Int) = ((a : Int) - b) % ((2 ^ w : Nat) : Int) := by
  have hp : (0 : Int) < ((2 ^ w : Nat) : Int) := by exact_mod_cast Nat.two_pow_pos w
  exact Int.toNat_of_nonneg (Int.emod_nonneg _ hp.ne')

/-- With enough rounds the carry loop of R90 takes all thousands off `f` and carries each into `m`. -/
theorem carryLoop_eq (w n f m : Nat) (h : f / 1000 ≤ n) (hm : m < 2 ^ w) :
    carryLoop w n f m = (f % 1000, (m + f / 1000) % 2 ^ w) := by
  induction n generalizing f m with
  | zero =>
    have h1 : f / 1000 = 0 := by omega
    have h2 : f % 1000 = f := by omega
    rw [carryLoop, h1, h2, Nat.add_zero, Nat.mod_eq_of_lt hm]
  | succ n ih =>
    rw [carryLoop]
    split
    · rename_i hf
      have h1 : (f - 1000) % 1000 = f % 1000 := by omega
      have h2 : m + 1 + (f - 1000) / 1000 = m + f / 1000 := by omega
      rw [ih (f - 1000) (addW w m 1) (by omega) (addW_lt w m 1), h1, addW, Nat.mod_add_mod, h2]
    · rename_i hf
      have h1 : f / 1000 = 0 := by omega
      have h2 : f % 1000 = f := by omega
      rw [h1, h2, Nat.add_zero, Nat.mod_eq_of_lt hm]

/-- All a `TICK` step does (R90): the whole milliseconds of `FRACT + TICK_US` into `MS`, the rest into `FRACT`. -/
theorem State.tick_eq (s : State) (h : s.ms < 2 ^ s.cfg.w) :
    s.tick = s.setClock ((s.ms + (s.fract + tickPeriod s.cfg) / 1000) % 2 ^ s.cfg.w) ((s.fract + tickPeriod s.cfg) % 1000) := by
  simp only [State.tick, carryLoop_eq _ _ _ _ (Nat.div_le_self _ _) h]

/-- The open period is a sub-millisecond one (R5). -/
theorem tickPeriod_range {c : Config} (h : c.Valid) : 1 ≤ tickPeriod c ∧ tickPeriod c ≤ 999 := by
  unfold tickPeriod
  split
  · rename_i us hus
    exact h.2.1 us hus
  · have := Config.openPeriod.isLt
    omega

/-- A tick writes the clock registers and nothing else (R39, R186). -/
theorem State.tick_frame (s : State) : s.tick = s.setClock s.tick.ms s.tick.fract := rfl

/-- All the atomic clock read does: `MS`, and `IE` restored to 1 (R93). -/
theorem State.readClock_eq (s : State) : s.readClock = (s.ms, s.setIe true) := rfl

/-- All a pin read does: some levels, and perhaps one free value drawn (R105). -/
theorem State.pinRead_cases (s : State) :
    (∃ p, s.pins = some p ∧ s.pinRead = (p, s)) ∨
    (s.pins = none ∧ s.pinRead = (Config.pinLevels s.draws, s.drawn)) := by
  unfold State.pinRead
  split
  · rename_i p h
    exact .inl ⟨p, h, rfl⟩
  · rename_i h
    exact .inr ⟨h, rfl⟩

end Sys2Proof.Machine
end

