-- ==== Sys2Proof/Laws/Meanings.lean ====
section
/-! SUPPORT. Inversion of the meanings: if an operation answers a next state, what that state is. -/

namespace Sys2Proof.Machine

/-- A sample either takes the pins, or reuses the last-accepted state (R100). -/
theorem State.sample_cases (s : State) (t : Nat) :
    (s.qualifies t = true ∧ s.sample t = (buttonsOfPins s.pinRead.1, s.pinRead.2.setBtnT t)) ∨
    (s.qualifies t = false ∧ s.sample t = (s.btnCur, s)) := by
  unfold State.sample
  cases s.qualifies t
  · exact .inr ⟨rfl, rfl⟩
  · exact .inl ⟨rfl, rfl⟩

theorem execNow_next {s t : State} (h : execNow s = .next t) : t = (s.setIe true).answer (some (.millis s.ms)) := by
  cases h
  rfl

theorem execPoll_next {s t : State} (h : execPoll s = .next t) :
    ∃ cur u, (s.setIe true).sample s.ms = (cur, u) ∧
      t = (u.setButtons cur s.btnCur).answer (some (.buttons (pollWord cur s.btnCur))) := by
  cases h
  exact ⟨_, _, rfl, rfl⟩

theorem execRefresh_next {s t : State} {time : Seconds} {dots : BitVec 8} {mask : BitVec 3}
    (h : execRefresh time dots mask s = .next t) :
    t = (s.setFrame (segLevelsOf s.cfg (displayDigit time s.cursor)) (digitEnable s.cursor mask) (dotLevel s.cfg dots)
      (nextCursor s.cursor)).answer none := by
  cases h
  rfl

theorem execLoad_next {s t : State} (h : execLoad s = .next t) :
    ∃ raw, s.nvRead16 = some raw ∧ t = s.answer (some (.duration (normalise s.cfg raw))) := by
  unfold execLoad at h
  split at h
  · rename_i raw hraw
    cases h
    exact ⟨raw, hraw, rfl⟩
  · cases h

theorem execSave_next {s t : State} {dur : Seconds} (h : execSave dur s = .next t) :
    ∃ u, s.nvWrite16 dur = some u ∧ t = u.answer none := by
  unfold execSave at h
  split at h
  · rename_i u hu
    cases h
    exact ⟨u, hu, rfl⟩
  · cases h

theorem execShow_next {s t : State} {sel : BitVec 2} (h : execShow sel s = .next t) :
    ∃ m, modeOfSel sel = some m ∧ t = (s.setLed (modePattern m)).answer none := by
  unfold execShow at h
  split at h
  · rename_i m hm
    cases h
    exact ⟨m, hm, rfl⟩
  · cases h

theorem execChan_next {s t : State} {sel : BitVec 2} (h : execChan sel s = .next t) : t = (s.setUv sel).answer none := by
  cases h
  rfl

end Sys2Proof.Machine
end

