-- ==== Sys2Proof/Laws/Turn.lean ====
section
/-! SUPPORT. Inversion of a step: which agent moved, and what its move did. -/

namespace Sys2Proof.Machine

theorem andThen_next {o : Host.Outcome State Fault Refusal} {k : State → State} {t : State} (h : andThen o k = .next t) :
    ∃ u, o = .next u ∧ t = k u := by
  cases o with
  | next u =>
    cases h
    exact ⟨u, rfl, rfl⟩
  | fault r => cases h
  | refused r => cases h

/-- All a choice of turn can do (R58): use up a turn laid down, or draw one. -/
theorem State.nextTurn_cases (s : State) :
    (∃ x rest, s.sched = x :: rest ∧ s.nextTurn = (x, s.setSched rest)) ∨
    (s.sched = [] ∧ s.nextTurn = (Config.freeTurn s.draws, s.drawn)) := by
  unfold State.nextTurn
  cases h : s.sched with
  | nil => exact .inr ⟨rfl, rfl⟩
  | cons x rest => exact .inl ⟨x, rest, rfl, rfl⟩

/-! A choice of turn writes the order of turns and the count of draws, nothing else. -/

@[simp] theorem State.nextTurn_cfg (s : State) : s.nextTurn.2.cfg = s.cfg := by
  unfold State.nextTurn; split <;> rfl
@[simp] theorem State.nextTurn_ms (s : State) : s.nextTurn.2.ms = s.ms := by
  unfold State.nextTurn; split <;> rfl
@[simp] theorem State.nextTurn_fract (s : State) : s.nextTurn.2.fract = s.fract := by
  unfold State.nextTurn; split <;> rfl
@[simp] theorem State.nextTurn_ie (s : State) : s.nextTurn.2.ie = s.ie := by
  unfold State.nextTurn; split <;> rfl
@[simp] theorem State.nextTurn_tickPend (s : State) : s.nextTurn.2.tickPend = s.tickPend := by
  unfold State.nextTurn; split <;> rfl
@[simp] theorem State.nextTurn_btnCur (s : State) : s.nextTurn.2.btnCur = s.btnCur := by
  unfold State.nextTurn; split <;> rfl
@[simp] theorem State.nextTurn_btnPrev (s : State) : s.nextTurn.2.btnPrev = s.btnPrev := by
  unfold State.nextTurn; split <;> rfl
@[simp] theorem State.nextTurn_btnT (s : State) : s.nextTurn.2.btnT = s.btnT := by
  unfold State.nextTurn; split <;> rfl
@[simp] theorem State.nextTurn_cursor (s : State) : s.nextTurn.2.cursor = s.cursor := by
  unfold State.nextTurn; split <;> rfl
@[simp] theorem State.nextTurn_digen (s : State) : s.nextTurn.2.digen = s.digen := by
  unfold State.nextTurn; split <;> rfl
@[simp] theorem State.nextTurn_seg (s : State) : s.nextTurn.2.seg = s.seg := by
  unfold State.nextTurn; split <;> rfl
@[simp] theorem State.nextTurn_dot (s : State) : s.nextTurn.2.dot = s.dot := by
  unfold State.nextTurn; split <;> rfl
@[simp] theorem State.nextTurn_led (s : State) : s.nextTurn.2.led = s.led := by
  unfold State.nextTurn; split <;> rfl
@[simp] theorem State.nextTurn_uv (s : State) : s.nextTurn.2.uv = s.uv := by
  unfold State.nextTurn; split <;> rfl
@[simp] theorem State.nextTurn_nv (s : State) : s.nextTurn.2.nv = s.nv := by
  unfold State.nextTurn; split <;> rfl
@[simp] theorem State.nextTurn_result (s : State) : s.nextTurn.2.result = s.result := by
  unfold State.nextTurn; split <;> rfl
@[simp] theorem State.nextTurn_pins (s : State) : s.nextTurn.2.pins = s.pins := by
  unfold State.nextTurn; split <;> rfl
@[simp] theorem State.nextTurn_driver (s : State) : s.nextTurn.2.driver = s.driver := by
  unfold State.nextTurn; split <;> rfl
@[simp] theorem State.nextTurn_cmds (s : State) : s.nextTurn.2.cmds = s.cmds := by
  unfold State.nextTurn; split <;> rfl
@[simp] theorem State.nextTurn_main (s : State) : s.nextTurn.2.main = s.main := by
  unfold State.nextTurn; split <;> rfl

/-- All a turn of the command list's host can do (R24, R70): perform the operation its next word spells. -/
theorem listTurn_next {s t : State} (h : listTurn s = .next t) :
    ∃ w rest i, s.cmds = w :: rest ∧ decode w = .ok i ∧ exec i (s.setCmds rest) = .next t := by
  unfold listTurn at h
  split at h
  · cases h
  · rename_i w rest hc
    unfold issueWord at h
    split at h
    · rename_i i hi
      exact ⟨w, rest, i, hc, hi, h⟩
    · cases h

/-- All a turn of the reference host can do (R148): begin an iteration with a POLL, or the next entry of its list. -/
theorem mainTurn_next {s t : State} (h : mainTurn s = .next t) :
    (s.main.todo = [] ∧ ∃ u, exec .poll s = .next u ∧
      t = u.setMain (u.main.afterPoll u.cfg (buttonsOf u.result))) ∨
    (∃ a rest, s.main.todo = a :: rest ∧ hostAct a (s.setMain { s.main with todo := rest }) = .next t) := by
  unfold mainTurn at h
  split at h
  · rename_i hn
    exact .inl ⟨hn, andThen_next h⟩
  · rename_i a rest ha
    exact .inr ⟨a, rest, ha, h⟩

/-- All an entry of the reference host's list can do: issue its operation and react to the answer, or nothing. -/
theorem hostAct_next {a : HostAct} {s t : State} (h : hostAct a s = .next t) :
    (operationOf a s.main = none ∧ t = s) ∨
    (∃ i u, operationOf a s.main = some i ∧ exec i s = .next u ∧
      t = u.setMain (reactionTo a u.cfg u.result u.main)) := by
  unfold hostAct at h
  split at h
  · rename_i i hi
    obtain ⟨u, hu, rfl⟩ := andThen_next h
    exact .inr ⟨i, u, hi, hu, rfl⟩
  · rename_i hi
    cases h
    exact .inl ⟨hi, rfl⟩

/-- All a step can do (R12, R13, R25): deliver a held overflow, or the move of one agent. -/
theorem step_cases {s t : State} (h : step s = .next t) :
    (s.tickHeld = true ∧ t = s.deliverHeld) ∨
    (s.tickHeld = false ∧
      ((s.nextTurn.1 = .timer ∧ t = s.nextTurn.2.timerOverflow) ∨
       (∃ p, s.nextTurn.1 = .env p ∧ t = s.nextTurn.2.setPins p) ∨
       (s.nextTurn.1 = .power ∧ t = s.nextTurn.2.powerCycle) ∨
       (s.nextTurn.1 = .host ∧ s.nextTurn.2.driver = .commandList ∧ listTurn s.nextTurn.2 = .next t) ∨
       (s.nextTurn.1 = .host ∧ s.nextTurn.2.driver = .mainController ∧ mainTurn s.nextTurn.2 = .next t))) := by
  unfold step oneStep at h
  split at h
  · rename_i hh
    cases h
    exact .inl ⟨hh, rfl⟩
  · rename_i hh
    refine .inr ⟨by simpa using hh, ?_⟩
    cases hx : s.nextTurn.1 with
    | timer =>
      rw [hx] at h
      cases h
      exact .inl ⟨rfl, rfl⟩
    | env p =>
      rw [hx] at h
      cases h
      exact .inr (.inl ⟨p, rfl, rfl⟩)
    | power =>
      rw [hx] at h
      cases h
      exact .inr (.inr (.inl ⟨rfl, rfl⟩))
    | host =>
      rw [hx] at h
      simp only [takeTurn, hostTurn] at h
      split at h
      · rename_i hd
        exact .inr (.inr (.inr (.inl ⟨rfl, hd, h⟩)))
      · rename_i hd
        exact .inr (.inr (.inr (.inr ⟨rfl, hd, h⟩)))

end Sys2Proof.Machine
end

