-- ==== Sys2Proof/Laws/Host.lean ====
section
/-! SUPPORT. What a turn of the reference host answers: one lemma for the POLL that begins an iteration, one for an entry of its
list, and the button sets in the answer of a POLL. -/

namespace Sys2Proof.Machine

@[simp] theorem currentOf_pollWord (cur prev : Buttons) : currentOf (pollWord cur prev) = cur := by
  revert cur prev; decide
@[simp] theorem pressedOf_pollWord (cur prev : Buttons) : pressedOf (pollWord cur prev) = pressedSet cur prev := by
  revert cur prev; decide
@[simp] theorem releasedOf_pollWord (cur prev : Buttons) : releasedOf (pollWord cur prev) = releasedSet cur prev := by
  revert cur prev; decide

theorem getLsbD_pressedSet (cur prev : Buttons) (b : Nat) (h : b < 2) :
    (pressedSet cur prev).getLsbD b = (cur.getLsbD b && !prev.getLsbD b) := by
  simp [pressedSet, h]
theorem getLsbD_releasedSet (cur prev : Buttons) (b : Nat) (h : b < 2) :
    (releasedSet cur prev).getLsbD b = (!cur.getLsbD b && prev.getLsbD b) := by
  simp [releasedSet, h]

/-! A sample writes no register the host's logic reads, and no output (R100, R20). -/

@[simp] theorem State.sample_cfg (s : State) (t : Nat) : (s.sample t).2.cfg = s.cfg := by
  unfold State.sample State.pinRead; repeat' split
  all_goals rfl
@[simp] theorem State.sample_main (s : State) (t : Nat) : (s.sample t).2.main = s.main := by
  unfold State.sample State.pinRead; repeat' split
  all_goals rfl
@[simp] theorem State.sample_uv (s : State) (t : Nat) : (s.sample t).2.uv = s.uv := by
  unfold State.sample State.pinRead; repeat' split
  all_goals rfl

/-! The host's logic of an iteration in Idle, case by case (R152 to R156), and the hold counters it leaves (R150). -/

theorem MainCtl.idleLogic_start {m : MainCtl} {c : Config} (r : Buttons) (h : m.startHold = c.startHold) :
    m.idleLogic c r =
      { m with todo := [.drain none, .stamp, .lampsOn, .refresh m.duration (dotsWhenIdle c) 0b111#3, .delay] } := if_pos h
theorem MainCtl.idleLogic_mode {m : MainCtl} {c : Config} (r : Buttons) (h1 : m.startHold ≠ c.startHold)
    (h2 : m.modeHold = c.modeHold) :
    m.idleLogic c r = { m with
      ctl := .setupMin, minutes := 0, seconds := 0, blink := 0
      todo := [.refresh m.duration (dotsWhenIdle c) 0b111#3, .delay] } := (if_neg h1).trans (if_pos h2)
theorem MainCtl.idleLogic_release {m : MainCtl} {c : Config} {r : Buttons} (h1 : m.startHold ≠ c.startHold)
    (h2 : m.modeHold ≠ c.modeHold) (h3 : r.getLsbD 1 = true) :
    m.idleLogic c r = { m with
      mode := modeSucc m.mode
      todo := [.indicate, .refresh m.duration (dotsWhenIdle c) 0b111#3, .delay] } :=
  (if_neg h1).trans ((if_neg h2).trans (if_pos h3))
theorem MainCtl.idleLogic_none {m : MainCtl} {c : Config} {r : Buttons} (h1 : m.startHold ≠ c.startHold)
    (h2 : m.modeHold ≠ c.modeHold) (h3 : r.getLsbD 1 = false) :
    m.idleLogic c r = { m with todo := [.refresh m.duration (dotsWhenIdle c) 0b111#3, .delay] } :=
  (if_neg h1).trans ((if_neg h2).trans (if_neg (by rw [h3]; exact Bool.false_ne_true)))

theorem MainCtl.afterPoll_idle {m : MainCtl} (c : Config) (r : BitVec 6) (h : m.ctl = .idle) :
    m.afterPoll c r = (m.countHolds (currentOf r)).idleLogic c (releasedOf r) := by
  simp only [MainCtl.afterPoll, MainCtl.countHolds, h]

theorem MainCtl.idleLogic_holds (m : MainCtl) (c : Config) (r : Buttons) :
    (m.idleLogic c r).startHold = m.startHold ∧ (m.idleLogic c r).modeHold = m.modeHold := by
  simp only [MainCtl.idleLogic]
  repeat' split
  all_goals exact ⟨rfl, rfl⟩
theorem MainCtl.setupMinLogic_holds (m : MainCtl) (c : Config) (p : Buttons) :
    (m.setupMinLogic c p).startHold = m.startHold ∧ (m.setupMinLogic c p).modeHold = m.modeHold := by
  simp only [MainCtl.setupMinLogic]
  repeat' split
  all_goals exact ⟨rfl, rfl⟩
theorem MainCtl.setupSecLogic_holds (m : MainCtl) (c : Config) (p : Buttons) :
    (m.setupSecLogic c p).startHold = m.startHold ∧ (m.setupSecLogic c p).modeHold = m.modeHold := by
  simp only [MainCtl.setupSecLogic]
  repeat' split
  all_goals exact ⟨rfl, rfl⟩

/-- The host's logic leaves the hold counters as its POLL counted them (R150). -/
theorem MainCtl.afterPoll_holds (m : MainCtl) (c : Config) (r : BitVec 6) :
    (m.afterPoll c r).startHold = (m.countHolds (currentOf r)).startHold ∧
    (m.afterPoll c r).modeHold = (m.countHolds (currentOf r)).modeHold := by
  unfold MainCtl.afterPoll
  generalize m.countHolds (currentOf r) = m1
  simp only
  split
  · exact m1.idleLogic_holds _ _
  · exact m1.setupMinLogic_holds _ _
  · exact m1.setupSecLogic_holds _ _
  · exact ⟨rfl, rfl⟩

/-- No operation writes the parameters or the reference host's variables (R20). -/
theorem exec_keeps {i : Instr} {s t : State} (h : exec i s = .next t) : t.cfg = s.cfg ∧ t.main = s.main := by
  cases i with
  | now => rw [execNow_next h]; exact ⟨rfl, rfl⟩
  | poll =>
    cases h
    simp [State.readClock]
  | refresh time dots mask => rw [execRefresh_next h]; exact ⟨rfl, rfl⟩
  | load =>
    obtain ⟨_, _, rfl⟩ := execLoad_next h
    exact ⟨rfl, rfl⟩
  | save dur =>
    obtain ⟨u, hu, rfl⟩ := execSave_next h
    rw [State.nvWrite16_eq] at hu
    split at hu <;> cases hu
    exact ⟨rfl, rfl⟩
  | showMode sel =>
    obtain ⟨_, _, rfl⟩ := execShow_next h
    exact ⟨rfl, rfl⟩
  | chan sel => rw [execChan_next h]; exact ⟨rfl, rfl⟩

/-- An operation reads nothing of the reference host's variables (R20). -/
theorem exec_setMain {i : Instr} {s t : State} (m : MainCtl) (h : exec i s = .next t) :
    exec i (s.setMain m) = .next (t.setMain m) := by
  cases i with
  | poll =>
    cases h
    simp only [exec, execPoll, State.sample, State.pinRead, State.qualifies]
    cases hp : s.pins <;> simp [hp, State.readClock, State.setIe, State.setMain] <;> split <;> rfl
  | load =>
    obtain ⟨raw, hr, rfl⟩ := execLoad_next h
    have hm : (s.setMain m).nvRead16 = some raw := hr
    simp only [exec, execLoad, hm]
    rfl
  | save dur =>
    obtain ⟨u, hu, rfl⟩ := execSave_next h
    have hm : (s.setMain m).nvWrite16 dur = some (u.setMain m) := by
      rw [State.nvWrite16_eq] at hu ⊢
      split at hu <;> cases hu
      rename_i hlt
      exact if_pos hlt
    simp only [exec, execSave, hm]
    rfl
  | showMode sel =>
    obtain ⟨x, hx, rfl⟩ := execShow_next h
    simp only [exec, execShow, hx]
    rfl
  | now => cases h; rfl
  | refresh time dots mask => cases h; rfl
  | chan sel => cases h; rfl

/-- All an iteration's first turn does (R148, R150): one POLL, of whose answer, the edges of the two button registers it has written,
the host's logic makes its variables. -/
theorem step_of_hostPolls {s : State} (h : s.hostPolls) :
    ∃ u, exec .poll s.nextTurn.2 = .next u ∧ u.uv = s.uv ∧ u.btnPrev = s.btnCur ∧
      step s = .next (u.setMain (s.main.afterPoll s.cfg (pollWord u.btnCur u.btnPrev))) := by
  obtain ⟨h1, h2, h3, h4⟩ := h
  have e : step s = andThen (exec .poll s.nextTurn.2) fun t => t.setMain (t.main.afterPoll t.cfg (buttonsOf t.result)) := by
    simp only [step, oneStep, h1, Bool.false_eq_true, if_false, takeTurn, h2, hostTurn, State.nextTurn_driver, h3, mainTurn,
      State.nextTurn_main, h4]
  refine ⟨_, rfl, ?_, ?_, e.trans ?_⟩
  · simp [State.readClock]
  · simp [State.readClock]
  · simp [exec, execPoll, andThen, State.readClock, buttonsOf]

/-- All a turn of the host does with an entry ahead that issues an operation (R148): that operation, and what the host makes of the
answer, the entry taken off. -/
theorem step_of_hostDoes {s u : State} {a : HostAct} {rest : List HostAct} {i : Instr} (h : s.hostDoes a)
    (hr : s.main.todo = a :: rest) (hi : operationOf a s.main = some i) (hu : exec i s.nextTurn.2 = .next u) :
    step s = .next (u.setMain (reactionTo a s.cfg u.result { s.main with todo := rest })) := by
  obtain ⟨h1, h2, h3, _⟩ := h
  have hi' : operationOf a { s.main with todo := rest } = some i := by rw [← hi]; cases a <;> rfl
  have hc : u.cfg = s.cfg := by simpa using (exec_keeps hu).1
  simp only [step, oneStep, h1, Bool.false_eq_true, if_false, takeTurn, h2, hostTurn, State.nextTurn_driver, h3, mainTurn,
    State.nextTurn_main, hr, hostAct, State.setMain_main, hi', exec_setMain _ hu, andThen]
  rw [← hc]
  rfl

/-- All a DELAY turn does (R149): it takes itself off the list. -/
theorem step_of_delay {s : State} {rest : List HostAct} (h : s.hostDoes .delay) (hr : s.main.todo = .delay :: rest) :
    step s = .next (s.nextTurn.2.setMain { s.main with todo := rest }) := by
  obtain ⟨h1, h2, h3, _⟩ := h
  simp only [step, oneStep, h1, Bool.false_eq_true, if_false, takeTurn, h2, hostTurn, State.nextTurn_driver, h3, mainTurn,
    State.nextTurn_main, hr, hostAct, operationOf]

/-- A run whose first step answers a next state goes on from it. -/
theorem run_succ {s t : State} (k : Nat) (h : step s = .next t) :
    Host.Core.run Sys2Proof.core (k + 1) s = Host.Core.run Sys2Proof.core k t := by
  have h' : Sys2Proof.core.step s = .next t := h
  simp only [Host.Core.run, h']

end Sys2Proof.Machine
end

