-- ==== Sys2Proof/Laws/PerInstr.lean ====
section
/-! SUPPORT. Statements about every instruction as syntax, one lemma per constructor. Family OpcodeField: the word of an operation
carries in bits 31:28 the opcode that R72 gives its mnemonic, and its zero field is clear (R71). -/

namespace Sys2Proof.Laws.OpcodeField

/-- The row of the opcode map (R72) an operation belongs to. -/
def opcode : Instr → Opcode
  | .now => .now
  | .poll => .poll
  | .refresh _ _ _ => .refresh
  | .load => .load
  | .save _ => .save
  | .showMode _ => .showMode
  | .chan _ => .chan

/-- The word of `i` is found in the opcode map under its own mnemonic (R72), and its field marked "zero" is zero (R71). -/
def Statement (i : Instr) : Prop :=
  opcodeOf (opField (encode i)) = some (opcode i) ∧ zeroFieldClear (formatOf (opcode i)) (encode i) = true

theorem now : Statement .now := by unfold Statement; decide
theorem poll : Statement .poll := by unfold Statement; decide
theorem load : Statement .load := by unfold Statement; decide

theorem refresh (time : Seconds) (dots : BitVec 8) (mask : BitVec 3) : Statement (.refresh time dots mask) := by
  refine ⟨?_, ?_⟩
  · have : opField (encode (.refresh time dots mask)) = 0x3#4 := by
      refine BitVec.eq_of_getLsbD_eq fun i hi => ?_
      simp only [opField, encode, BitVec.getLsbD_extractLsb', BitVec.getLsbD_append]
      simp [hi, show ¬ 28 + i < 16 by omega, show ¬ 28 + i - 16 < 8 by omega, show ¬ 28 + i - 16 - 8 < 3 by omega,
        show 28 + i - 16 - 8 - 3 = i + 1 by omega]
    rw [this]
    rfl
  · simp only [zeroFieldClear, formatOf, opcode, encode, beq_iff_eq]
    refine BitVec.eq_of_getLsbD_eq fun i hi => ?_
    have : i = 0 := by omega
    subst this
    simp only [BitVec.getLsbD_extractLsb', BitVec.getLsbD_append]
    simp

theorem save (dur : Seconds) : Statement (.save dur) := by
  refine ⟨?_, ?_⟩
  · have : opField (encode (.save dur)) = 0x5#4 := by
      refine BitVec.eq_of_getLsbD_eq fun i hi => ?_
      simp only [opField, encode, BitVec.getLsbD_extractLsb', BitVec.getLsbD_append]
      simp [hi, show ¬ 28 + i < 16 by omega, show 28 + i - 16 = i + 12 by omega]
    rw [this]
    rfl
  · simp only [zeroFieldClear, formatOf, opcode, encode, beq_iff_eq]
    refine BitVec.eq_of_getLsbD_eq fun i hi => ?_
    simp only [BitVec.getLsbD_extractLsb', BitVec.getLsbD_append]
    simp [hi]

theorem showMode (sel : BitVec 2) : Statement (.showMode sel) := by unfold Statement; revert sel; decide
theorem chan (sel : BitVec 2) : Statement (.chan sel) := by unfold Statement; revert sel; decide

end Sys2Proof.Laws.OpcodeField
end

