-- ==== Sys2Proof/Machine/Listing.lean ====
section
/-! DEFINITION. The written form of R81 and R82: listings of operations, `TICK` and `PINS` lines as data, how a listing lays a run
down in a state, and the text of a line read and written. -/

namespace Sys2Proof.Machine

/-- One line of a listing (R81). -/
inductive Line where
  /-- `TICK` or `TICK * n` -/
  | ticks (n : Nat)
  /-- `PINS start=.. mode=..` -/
  | pins (start mode : BitVec 1)
  /-- an operation -/
  | command (i : Instr)
  /-- the remark of program P3: power cycle, the next run begins -/
  | powerCycle
  deriving DecidableEq, Repr

/-- The turns a listing lays down (R81). -/
def turnsOf : List Line → List Turn
  | [] => []
  | .ticks n :: ls => List.replicate n .timer ++ turnsOf ls
  | .pins a b :: ls => .env (some ⟨a, b⟩) :: turnsOf ls
  | .command _ :: ls => .host :: turnsOf ls
  | .powerCycle :: ls => .power :: turnsOf ls

/-- The command words of a listing, in order (R24, R81). -/
def wordsOf : List Line → List CommandWord
  | [] => []
  | .command i :: ls => encode i :: wordsOf ls
  | .ticks _ :: ls => wordsOf ls
  | .pins _ _ :: ls => wordsOf ls
  | .powerCycle :: ls => wordsOf ls

/-- The state with a listing laid down as its run. -/
def State.withListing (s : State) (ls : List Line) : State :=
  { s with driver := .commandList, sched := turnsOf ls, cmds := wordsOf ls }

/-! ### Writing -/

/-- The binary digits of a field, highest first, after `0b` (R81). -/
def binaryText (n : Nat) (v : BitVec n) : String :=
  "0b" ++ String.ofList ((List.range n).reverse.map fun k => if v.getLsbD k then '1' else '0')

/-- Two hexadecimal digits after `0x` (R81). -/
def hexText (v : BitVec 8) : String :=
  "0x" ++ String.ofList ([v.toNat / 16, v.toNat % 16].map fun d => (Nat.digitChar d).toUpper)

/-- The name of a Mode (R81, R136). -/
def modeName : Mode → String
  | .top => "Top"
  | .bottom => "Bottom"
  | .both => "Both"

/-- The Mode a `sel` of SHOW is written as; `3` names none (R136). -/
def selName (sel : BitVec 2) : String :=
  if sel = 0#2 then modeName .top else if sel = 1#2 then modeName .bottom else if sel = 2#2 then modeName .both else "?"

/-- The written form of an operation (R81): mnemonic in capitals, operands separated by commas, `time` and `dur` decimal,
`dots` hexadecimal, `mask` and `sel` binary, SHOW with the Mode's name. -/
def asmText : Instr → String
  | .now => "NOW"
  | .poll => "POLL"
  | .refresh time dots mask => "REFRESH " ++ toString time.toNat ++ ", " ++ hexText dots ++ ", " ++ binaryText 3 mask
  | .load => "LOAD"
  | .save dur => "SAVE " ++ toString dur.toNat
  | .showMode sel => "SHOW " ++ selName sel
  | .chan sel => "CHAN " ++ binaryText 2 sel

/-- The written form of a result, after the arrow (R81). -/
def resultText : Result → String
  | .millis ms => "-> " ++ toString ms
  | .buttons r => "-> " ++ binaryText 6 r
  | .duration d => "-> " ++ toString d.toNat

/-! ### Reading -/

/-- What separates the words of a line, the brackets of the source's own call spelling among them (R81). -/
def isSeparator (c : Char) : Bool := c = ' ' || c = ',' || c = '(' || c = ')'

/-- The words of a line. -/
def wordsFrom : List Char → List Char → List (List Char)
  | acc, [] => if acc.isEmpty then [] else [acc.reverse]
  | acc, c :: cs =>
      if isSeparator c then
        if acc.isEmpty then wordsFrom [] cs else acc.reverse :: wordsFrom [] cs
      else wordsFrom (c :: acc) cs

/-- The value of a digit in a base up to 16. -/
def digitValue (base : Nat) (c : Char) : Option Nat :=
  let v :=
    if '0' ≤ c ∧ c ≤ '9' then c.toNat - '0'.toNat
    else if 'a' ≤ c ∧ c ≤ 'f' then c.toNat - 'a'.toNat + 10
    else if 'A' ≤ c ∧ c ≤ 'F' then c.toNat - 'A'.toNat + 10
    else 16
  if v < base then some v else none

/-- The value of a row of digits. -/
def digitsValue (base : Nat) : Nat → List Char → Option Nat
  | acc, [] => some acc
  | acc, c :: cs =>
      match digitValue base c with
      | some d => digitsValue base (acc * base + d) cs
      | none => none

/-- A numeral: `0x` hexadecimal, `0b` binary, else decimal (R6). -/
def numeral : List Char → Option Nat
  | [] => none
  | ['0', 'x'] => none
  | ['0', 'b'] => none
  | '0' :: 'x' :: ds => digitsValue 16 0 ds
  | '0' :: 'b' :: ds => digitsValue 2 0 ds
  | ds => digitsValue 10 0 ds

/-- A numeral that fits a field of `n` bits. -/
def fieldOf (n : Nat) (w : String) : Option (BitVec n) :=
  match numeral w.toList with
  | some v => if v < 2 ^ n then some (BitVec.ofNat n v) else none
  | none => none

/-- A Mode by its name. -/
def modeNamed (w : String) : Option Mode :=
  if w = "Top" then some .top else if w = "Bottom" then some .bottom else if w = "Both" then some .both else none

/-- The operation a row of words spells: the form of R81, the source's own spelling of the contract, which is a synonym, or a
pseudo-operation of R82. -/
def readWords (ws : List String) : Option Instr :=
  match ws with
  | [op] =>
      if op = "NOW" ∨ op = "now" then some .now
      else if op = "POLL" ∨ op = "poll" then some .poll
      else if op = "LOAD" ∨ op = "load" then some .load
      else if op = "UVOFF" then some uvOffOp
      else none
  | [op, a] =>
      if op = "SAVE" ∨ op = "save" then (fieldOf 16 a).map .save
      else if op = "SHOW" ∨ op = "show" then (modeNamed a).map fun m => .showMode (modeNumber m)
      else if op = "CHAN" then (fieldOf 2 a).map .chan
      else if op = "EXPOSE" then (modeNamed a).map exposeOp
      else none
  | [op, a, b] =>
      if op = "BLANK" then
        match fieldOf 16 a, fieldOf 8 b with
        | some time, some dots => some (blankOp time dots)
        | _, _ => none
      else none
  | [op, a, b, c] =>
      if op = "REFRESH" ∨ op = "refresh" then
        match fieldOf 16 a, fieldOf 8 b, fieldOf 3 c with
        | some time, some dots, some mask => some (.refresh time dots mask)
        | _, _, _ => none
      else none
  | _ => none

/-- The level after a pin's name and an equals sign. -/
def levelOf (name w : String) : Option (BitVec 1) :=
  if w = name ++ "=0" then some 0#1 else if w = name ++ "=1" then some 1#1 else none

/-- The line a text spells, if it spells one (R81, R82). -/
def readLine (text : String) : Option Line :=
  let ws := (wordsFrom [] text.toList).map String.ofList
  match ws with
  | ["TICK"] => some (.ticks 1)
  | ["TICK", "*", n] => (numeral n.toList).map .ticks
  | ["PINS", a, b] =>
      match levelOf "start" a, levelOf "mode" b with
      | some s, some m => some (.pins s m)
      | _, _ => none
  | _ => (readWords ws).map .command

end Sys2Proof.Machine
end

