-- ==== Sys2Proof/Tests/Slice0.lean ====
section
/-! SUPPORT. Tests of the model, expected results taken from spec/95_test_vectors.md and the encodings of spec/30_encoding.md, and
one witness for the hypotheses of each statement. -/

namespace Sys2Proof.Tests

open Sys2Proof.Machine

/-! ### Helpers -/

/-- The next state, if there is one. -/
def nextOf : Host.Outcome State Fault Refusal → Option State
  | .next t => some t
  | .fault _ => none
  | .refused _ => none

/-- The refusal, if there is one. -/
def refusalIn : Host.Outcome State Fault Refusal → Option Refusal
  | .refused r => some r
  | .next _ => none
  | .fault _ => none

/-- Reset state with these turns laid down. -/
def turns (ts : List Turn) : State := { State.reset with sched := ts }

/-- Reset state with these command words, the host's turn next. -/
def words (ws : List CommandWord) : State := { State.reset with sched := [.host], cmds := ws }

/-- Reset state with the timer's period named. -/
def period (us : Nat) : State := { State.reset with cfg := { Config.default with tickUs := some us } }

/-- Reset state with these two bytes in the store. -/
def bytes (b0 b1 : Byte) : State := { State.reset with nv := [(0, b0), (1, b1)] }

/-- Reset state under the reference host, with these variables, its turn next. -/
def box (m : MainCtl) : State := { State.reset with driver := .mainController, main := m, sched := [.host] }

/-- The reference host past its boot. -/
def idling : MainCtl := { MainCtl.boot with todo := [] }

/-! ### Well-formedness: the one check refuses its ill-formed term (R78) -/

theorem test_wf_show_3 : (Instr.showMode 3#2).wellFormed = false := by decide
theorem test_wf_show_2 : (Instr.showMode 2#2).wellFormed = true := by decide

/-! ### Decoding: words written out bit by bit from R71 and R72 -/

theorem test_decode_now : decode 0b0001_0000000000000000000000000000#32 = .ok .now := by rfl
theorem test_decode_poll : decode 0b0010_0000000000000000000000000000#32 = .ok .poll := by rfl
theorem test_decode_refresh :
    decode 0b0011_0_110_11111111_0000001001010111#32 = .ok (.refresh 599#16 0xFF#8 0b110#3) := by rfl
theorem test_decode_load : decode 0b0100_0000000000000000000000000000#32 = .ok .load := by rfl
theorem test_decode_save : decode 0b0101_000000000000_0000000001111101#32 = .ok (.save 125#16) := by rfl
theorem test_decode_show : decode 0b0110_00000000000000000000000000_10#32 = .ok (.showMode 2#2) := by rfl
theorem test_decode_chan : decode 0b0111_00000000000000000000000000_01#32 = .ok (.chan 0b01#2) := by rfl
/-- V-DECODE: the opcode test comes first. -/
theorem test_decode_order : decode 0x0FFFFFFF#32 = .error .reservedOpcode := by rfl
theorem test_decode_reserved_ff : decode 0xFFFFFFFF#32 = .error .reservedOpcode := by rfl
theorem test_decode_bit27 : decode 0x3FFFFFFF#32 = .error .reservedBits := by rfl
theorem test_decode_mode3 : decode 0x60000003#32 = .error .reservedMode := by rfl
/-- R82 with R84's words. -/
theorem test_pseudo_words :
    encode (exposeOp .both) = 0x70000003#32 ∧ encode uvOffOp = 0x70000000#32 ∧ encode (blankOp 0#16 0xFF#8) = 0x30FF0000#32 := by
  decide
/-- R81's own example. -/
theorem test_asm_refresh : asmText (.refresh 125#16 0xFF#8 0b111#3) = "REFRESH 125, 0xFF, 0b111" := by decide
theorem test_read_refresh : readLine "refresh(125, 0xFF, 0b111)" = some (.command (.refresh 125#16 0xFF#8 0b111#3)) := by decide
theorem test_read_pins : readLine "PINS start=0 mode=1" = some (.pins 0#1 1#1) := by decide
theorem test_read_ticks : readLine "TICK * 4000" = some (.ticks 4000) := by decide

/-! ### The table's rows run as the first operation after reset -/

theorem test_first_step_runs :
    ∀ w ∈ [0x10000000, 0x20000000, 0x37FF007D, 0x40000000, 0x5000007D, 0x60000001, 0x70000003],
      (nextOf (step (State.reset.withFetchWord 32 w))).isSome = true := by decide

/-! ### CLOCK (V-TICK, V-NOW) -/

theorem test_tick_carries : ({ period 256 with ms := 7, fract := 936 } : State).tick.ms = 8 ∧
    ({ period 256 with ms := 7, fract := 936 } : State).tick.fract = 192 := by decide
theorem test_tick_wraps : ({ period 250 with ms := 0xFFFFFFFF, fract := 750 } : State).tick.ms = 0 ∧
    ({ period 250 with ms := 0xFFFFFFFF, fract := 750 } : State).tick.fract = 0 := by decide
theorem test_now_reads : (nextOf (exec .now { State.reset with ms := 250 })).bind (·.result) = some (.millis 250) := by decide

/-! ### INPUT (V-POLL-6, V-POLL-12) -/

theorem test_poll_double_edge :
    (nextOf (exec .poll { State.reset with btnCur := 0b01#2, btnPrev := 0b01#2, btnT := 5, ms := 10, pins := some ⟨1#1, 0#1⟩ })).map
      (fun t => (t.btnCur, t.btnPrev, t.btnT, t.result)) = some (0b10#2, 0b01#2, 10, some (.buttons 0b011010#6)) := by decide
theorem test_poll_across_wrap :
    (nextOf (exec .poll { State.reset with btnT := 0xFFFFFFFE, ms := 3, pins := some ⟨0#1, 1#1⟩ })).map
      (fun t => (t.btnCur, t.btnT, t.result)) = some (0b01#2, 3, some (.buttons 0b000101#6)) := by decide

/-! ### DISPLAY (V-REFRESH, single steps) -/

theorem test_refresh_65535 :
    (nextOf (exec (.refresh 65535#16 0xFE#8 0b001#3) State.reset)).map (fun t => (t.seg, t.digen, t.dot, t.cursor)) =
      some (0x24#7, 0b001#3, 0#1, 1) := by decide
theorem test_refresh_blank :
    (nextOf (exec (.refresh 0#16 0xFF#8 0b000#3) { State.reset with cursor := 2 })).map (fun t => (t.seg, t.digen, t.dot, t.cursor)) =
      some (0x40#7, 0b000#3, 1#1, 0) := by decide

/-! ### CONFIG (V-LOAD, V-SAVE) -/

theorem test_load_corrupt : (nextOf (exec .load (bytes 0xBC#8 0x02#8))).bind (·.result) = some (.duration 30#16) := by decide
theorem test_load_big :
    (nextOf (exec .load { bytes 0x02#8 0x57#8 with cfg := { Config.default with nvEndian := .big } })).bind (·.result) =
      some (.duration 599#16) := by decide
theorem test_save_little : (nextOf (exec (.save 599#16) State.reset)).map (·.nv) = some [(0, 0x57#8), (1, 0x02#8)] := by decide
theorem test_save_big :
    (nextOf (exec (.save 125#16) { bytes 0xFF#8 0xFF#8 with cfg := { Config.default with nvEndian := .big } })).map (·.nv) =
      some [(0, 0x00#8), (1, 0x7D#8)] := by decide

/-! ### GPIO (V-SHOW, V-CHAN) -/

theorem test_show_both : (nextOf (exec (.showMode 2#2) State.reset)).map (fun t => (t.led, t.uv)) = some (0b11#2, 0b00#2) := by
  decide
theorem test_show_3 : refusalIn (exec (.showMode 3#2) State.reset) = some .reservedMode := by decide
theorem test_chan_bottom : (nextOf (exec (.chan 0b10#2) State.reset)).map (fun t => (t.led, t.uv)) = some (0b00#2, 0b10#2) := by
  decide

/-! ### The reference host (V-HOST) -/

/-- V-HOST-6: at `blink = 256` the minutes digit is hidden. -/
theorem test_host_blink :
    (MainCtl.setupMinLogic { idling with ctl := .setupMin, minutes := 2, blink := 256 } { Config.default with idleDots := some 0#8 }
      0b00#2).todo = [.refresh 120#16 0#8 0b110#3, .delay] := by decide
/-- V-HOST-7: a finished exposure, dark half of the blink period. -/
theorem test_host_finished :
    MainCtl.exposureLogic { idling with ctl := .exposure, duration := 2#16, blink := 256 } Config.default 2000 0b00#2 =
      [.lampsOff, .refresh 0#16 0x00#8 0b000#3, .delay] := by decide
/-- Program P4, iteration D: time over and Start held. -/
theorem test_host_acknowledge :
    MainCtl.exposureLogic { idling with ctl := .exposure, duration := 2#16, entry := 10 } Config.default 2015 0b01#2 =
      [.lampsOff, .lampsOff, .drain (some .idle), .refresh 0#16 0xFF#8 0b111#3, .delay] := by decide
/-- V-HOST-3: a Mode release seen in Idle is followed by SHOW Bottom. -/
theorem test_host_mode :
    (nextOf (step (box { idling with mode := .bottom, todo := [.indicate] }))).map (·.led) = some 0b10#2 := by decide

/-! ### Witnesses: for each statement with hypotheses, a state and operands that meet them all -/

theorem witness_decodeOfEncode : (Instr.refresh 65535#16 0xFF#8 0b111#3).wellFormed = true := by decide
theorem witness_encodeOfDecode : decode 0x37FFFFFF#32 = .ok (.refresh 65535#16 0xFF#8 0b111#3) := by rfl

theorem port_words (w : CommandWord) (rest : List CommandWord) : AtCommandPort (words (w :: rest)) w rest :=
  ⟨rfl, rfl, rfl, rfl⟩
/-- RefusalReasonsInOrder, a word for each branch, at the ends of the reserved ranges. -/
theorem witness_refusal_opcode : AtCommandPort (words [0x0FFFFFFF#32]) 0x0FFFFFFF#32 [] ∧
    (0x0FFFFFFF#32 : CommandWord).toNat / 2 ^ 28 = 0 ∧ (0x80000000#32 : CommandWord).toNat / 2 ^ 28 = 8 :=
  ⟨port_words _ _, by decide, by decide⟩
theorem witness_refusal_bits : AtCommandPort (words [0x38000000#32]) 0x38000000#32 [] ∧
    HasReservedBits ((0x38000000#32 : CommandWord).toNat / 2 ^ 28) (0x38000000#32 : CommandWord).toNat ∧
    HasReservedBits ((0x60000004#32 : CommandWord).toNat / 2 ^ 28) (0x60000004#32 : CommandWord).toNat :=
  ⟨port_words _ _, by decide, by decide⟩
theorem witness_refusal_mode : AtCommandPort (words [0x60000003#32]) 0x60000003#32 [] ∧
    ¬ HasReservedBits 6 (0x60000003#32 : CommandWord).toNat ∧ (0x60000003#32 : CommandWord).toNat % 2 ^ 2 = 3 :=
  ⟨port_words _ _, by decide, by decide⟩
theorem witness_refusal_none : AtCommandPort (words [0x70000003#32]) 0x70000003#32 [] ∧
    ¬ HasReservedBits 7 (0x70000003#32 : CommandWord).toNat ∧
    (words [0x70000003#32]).cfg.nvAddr + 1 < (words [0x70000003#32]).cfg.nvSize :=
  ⟨port_words _ _, by decide, by decide⟩
theorem witness_stepPerforms : AtCommandPort (words [0x10000000#32]) 0x10000000#32 [] ∧ decode 0x10000000#32 = .ok .now :=
  ⟨port_words _ _, rfl⟩
theorem witness_placedWord : decodeTableWord 32 0x5000007D = some (.save 125#16) := by decide
theorem witness_endOfList : (words []).tickHeld = false ∧ (words []).nextTurn.1 = .host ∧ (words []).driver = .commandList ∧
    (words []).cmds = [] := by decide
theorem witness_parametersNeverChange : ∃ t, step (words [0x5000007D#32]) = .next t := ⟨_, rfl⟩

theorem witness_now_enabled : State.reset.ie = true := by decide
theorem witness_tick : (turns [.timer]).ms < 2 ^ (turns [.timer]).cfg.w ∧ (turns [.timer]).ie = true ∧
    (turns [.timer]).tickPend = false ∧ (turns [.timer]).nextTurn.1 = .timer := by decide
theorem witness_ticksAddUp :
    let s : State := period 250
    s.ms = 0 ∧ s.fract = 0 ∧ s.ie = true ∧ s.tickPend = false := by
  decide
theorem witness_clockMoves :
    State.reset.ms < 2 ^ State.reset.cfg.w ∧ State.reset.fract ≤ 999 ∧ State.reset.ie = true ∧
    Event.powerCycle ∉ [Event.tick, .op .now, .op .poll, .tick] ∧
    ∃ t, runEvents [.tick, .op .now, .op .poll, .tick] (period 250) = .next t :=
  ⟨by decide, by decide, by decide, by decide, ⟨_, rfl⟩⟩
theorem witness_onlyTicks : (nextOf (step { period 999 with fract := 1, sched := [.timer] })).map (·.ms) = some 1 := by decide
theorem witness_held_1 : ({ turns [.timer] with ie := false } : State).ie = false ∧
    ({ turns [.timer] with ie := false } : State).nextTurn.1 = .timer := by decide
theorem witness_held_2 :
    let s : State := { State.reset with tickPend := true }
    s.ie = true ∧ s.tickPend = true ∧ s.ms < 2 ^ s.cfg.w := by decide
theorem witness_held_3 : ∃ t, exec .now { State.reset with ie := false, tickPend := true } = .next t := ⟨_, rfl⟩

theorem witness_poll_qualifies : Qualifies { State.reset with ms := 5 } := by unfold Qualifies; decide
theorem witness_poll_not : ¬ Qualifies { State.reset with ms := 4 } := by unfold Qualifies; decide
theorem witness_poll_levels : ({ State.reset with ms := 5, pins := some ⟨0#1, 1#1⟩ } : State).pins = some ⟨0#1, 1#1⟩ := by decide
theorem witness_pollFlags : (nextOf (exec .poll { State.reset with ms := 5, pins := some ⟨0#1, 1#1⟩ })).bind (·.result) =
    some (.buttons 0b000101#6) := by decide
theorem witness_pollOthers : Instr.now ≠ .poll ∧ ∃ t, exec .now State.reset = .next t := ⟨by decide, ⟨_, rfl⟩⟩
theorem witness_edgeOnce :
    ∃ t u v, exec .poll { State.reset with ms := 5, pins := some ⟨0#1, 1#1⟩ } = .next t ∧
      t.result = some (.buttons 0b000101#6) ∧ (∀ e ∈ [Event.op .now], e.keepsButtons = true) ∧
      runEvents [.op .now] t = .next u ∧ exec .poll u = .next v ∧ v.result = some (.buttons 0b000001#6) ∧
      (0b000101#6).getLsbD 2 = true :=
  ⟨_, _, _, rfl, rfl, by decide, rfl, rfl, rfl, by decide⟩
theorem witness_buttonsChange :
    (nextOf (step { words [0x20000000#32] with ms := 5, pins := some ⟨0#1, 1#1⟩ })).map (·.btnCur) = some 0b01#2 := by decide

theorem witness_refreshEnables : ∃ t, exec (.refresh 0#16 0#8 0b111#3) State.reset = .next t := ⟨_, rfl⟩
theorem witness_load : State.reset.cfg.nvAddr + 1 < State.reset.cfg.nvSize ∧
    State.reset.cfg.defaultDuration.toNat ≤ 599 := by decide
theorem witness_savedIsLoaded :
    ∃ t u, exec (.save 599#16) State.reset = .next t ∧ (∀ e ∈ [Event.powerCycle, .op .load], e.keepsStore = true) ∧
      runEvents [.powerCycle, .op .load] t = .next u :=
  ⟨_, _, rfl, by decide, rfl⟩
theorem witness_saveTwice : ∃ t, exec (.save 65535#16) State.reset = .next t := ⟨_, rfl⟩
theorem witness_onlySave :
    (nextOf (step { bytes 0#8 0#8 with sched := [.host], cmds := [0x5000007D#32] })).map (fun t => t.nv.read 0) = some 0x7D#8 ∧
    (bytes 0#8 0#8).nv.read 0 = 0#8 := by decide
theorem witness_storeOutside :
    let s : State := { State.reset with cfg := { Config.default with nvAddr := 1 } }
    s.cfg.nvSize ≤ s.cfg.nvAddr + 1 := by decide
theorem witness_show : (0#2).toNat = 0 ∧ (1#2).toNat = 1 ∧ (2#2).toNat = 2 ∧ (3#2).toNat = 3 := by decide
theorem witness_lampsChange :
    (nextOf (step (words [0x70000003#32]))).map (·.uv) = some 0b11#2 ∧ (words [0x70000003#32]).uv = 0b00#2 := by decide
theorem witness_lampsStayOff :
    State.reset.uv = 0b00#2 ∧ (∀ e ∈ [Event.op .poll, .op (.chan 0b00#2), .powerCycle], e.keepsLampsOff = true) ∧
    ∃ t, runEvents [.op .poll, .op (.chan 0b00#2), .powerCycle] State.reset = .next t :=
  ⟨by decide, by decide, ⟨_, rfl⟩⟩
theorem witness_frames : ∃ t, exec (.save 1#16) State.reset = .next t := ⟨_, rfl⟩
theorem witness_frames_poll : ∃ t, exec .poll State.reset = .next t := ⟨_, rfl⟩
theorem witness_environment : (turns [.env none]).tickHeld = false ∧ (turns [.env none]).nextTurn.1 = .env none := by decide
theorem witness_environment_poll : ∃ t, exec .poll ({ State.reset with ms := 5 }.setPins (some ⟨0#1, 0#1⟩)) = .next t := ⟨_, rfl⟩
theorem witness_power : (turns [.power]).tickHeld = false ∧ (turns [.power]).nextTurn.1 = .power := by decide

theorem default_valid : Config.default.Valid := by
  refine ⟨by decide, ?_, by decide, by decide, by decide, by decide, by decide⟩
  intro us h
  cases h
/-- A state in the middle of a run: a lit digit, a stored value, a turn of the host. -/
theorem witness_blockInv :
    BlockInv { bytes 0x7D#8 0x00#8 with ms := 5, digen := 0b010#3, sched := [.host], cmds := [0x20000000#32] } ∧
    ∃ t, step { bytes 0x7D#8 0x00#8 with ms := 5, digen := 0b010#3, sched := [.host], cmds := [0x20000000#32] } = .next t :=
  ⟨⟨default_valid, by decide, by decide, rfl, rfl, by decide, by decide, by decide, by decide⟩, ⟨_, rfl⟩⟩
theorem witness_hostInv :
    HostInv (box { idling with ctl := .setupSec, minutes := 9, seconds := 55, blink := 511, duration := 599#16 }) ∧
    ∃ t, step (box { idling with ctl := .setupSec, minutes := 9, seconds := 55, blink := 511, duration := 599#16 }) = .next t :=
  ⟨⟨default_valid, by decide, by decide, by decide, by decide, by decide, by decide⟩, ⟨_, rfl⟩⟩
theorem witness_lampsInv :
    LampsInv { box { idling with ctl := .exposure, todo := [.lampsOff, .drain (some .idle)] } with uv := 0b11#2 } ∧
    ∃ t, step { box { idling with ctl := .exposure, todo := [.lampsOff, .drain (some .idle)] } with uv := 0b11#2 } = .next t :=
  ⟨⟨rfl, by decide, by decide⟩, ⟨_, rfl⟩⟩
theorem witness_lampsAtDrain :
    LampsInv (box { idling with todo := [.drain none] }) ∧ (box { idling with todo := [.drain none] }).hostDoes (.drain none) :=
  ⟨⟨rfl, by decide, by decide⟩, ⟨rfl, rfl, rfl, [], rfl⟩⟩
theorem witness_boot :
    let s : State := { box MainCtl.boot with sched := [.host, .host] }
    s.driver = .mainController ∧ s.main = MainCtl.boot ∧ s.tickPend = false ∧ s.sched = [.host, .host] ∧
    s.cfg.nvAddr + 1 < s.cfg.nvSize := by decide

theorem box_polls (m : MainCtl) (h : m.todo = []) : (box m).hostPolls := ⟨rfl, rfl, rfl, h⟩
theorem box_does (m : MainCtl) (a : HostAct) (rest : List HostAct) (h : m.todo = a :: rest) : (box m).hostDoes a :=
  ⟨rfl, rfl, rfl, rest, h⟩
theorem witness_holdCounters : (box idling).hostPolls := box_polls _ rfl
theorem witness_modeCycles :
    let s : State := { box idling with btnCur := 0b10#2, ms := 5, pins := some ⟨1#1, 1#1⟩ }
    s.hostPolls ∧ s.main.ctl = .idle ∧ ∃ t, step s = .next t ∧ t.btnPrev.getLsbD 1 = true ∧ t.btnCur.getLsbD 1 = false ∧
      t.main.startHold ≠ s.cfg.startHold ∧ t.main.modeHold ≠ s.cfg.modeHold :=
  ⟨⟨rfl, rfl, rfl, rfl⟩, rfl, ⟨_, rfl, by decide, by decide, by decide, by decide⟩⟩
theorem witness_indicate : (box { idling with todo := [.indicate] }).hostDoes .indicate := box_does _ _ [] rfl
theorem witness_longStart :
    let s : State := { box { idling with startHold := 499 } with btnCur := 0b01#2 }
    s.hostPolls ∧ s.main.ctl = .idle ∧ ∃ t, step s = .next t ∧ t.main.startHold = s.cfg.startHold :=
  ⟨⟨rfl, rfl, rfl, rfl⟩, rfl, ⟨_, rfl, by decide⟩⟩
theorem witness_stamp : (box { idling with todo := [.stamp] }).hostDoes .stamp := box_does _ _ [] rfl
theorem witness_lampsOn : (box { idling with todo := [.lampsOn] }).hostDoes .lampsOn := box_does _ _ [] rfl
theorem witness_longMode :
    let s : State := { box { idling with modeHold := 1499 } with btnCur := 0b10#2 }
    s.hostPolls ∧ s.main.ctl = .idle ∧ ∃ t, step s = .next t ∧ t.main.startHold ≠ s.cfg.startHold ∧
      t.main.modeHold = s.cfg.modeHold :=
  ⟨⟨rfl, rfl, rfl, rfl⟩, rfl, ⟨_, rfl, by decide, by decide⟩⟩
theorem witness_drain : (box { idling with todo := [.drain (some .idle)] }).hostDoes (.drain (some .idle)) := box_does _ _ [] rfl
theorem witness_countdown :
    (box { idling with ctl := .exposure, duration := 2#16, todo := [.countdown 0b01#2] }).hostDoes (.countdown 0b01#2) :=
  box_does _ _ [] rfl
/-- The time is over in the hidden half of the blink period, Start released (V-HOST-7): lamps off, a blank frame, no way out. -/
theorem witness_countdown_over :
    let s : State := box { idling with ctl := .exposure, duration := 0#16, blink := 256, todo := [.countdown 0b00#2] }
    s.hostDoes (.countdown 0b00#2) ∧
    (nextOf (step s)).map (·.main.todo) = some [.lampsOff, .refresh 0#16 0x00#8 0b000#3, .delay] :=
  ⟨box_does _ _ [] rfl, by decide⟩
/-- The time is not over: no lamps-off anywhere, the dot lit in the shown half. -/
theorem witness_countdown_running :
    let s : State := box { idling with ctl := .exposure, duration := 2#16, blink := 255, todo := [.countdown 0b01#2] }
    s.hostDoes (.countdown 0b01#2) ∧
    (nextOf (step s)).map (·.main.todo) = some [.refresh 2#16 0xFF#8 0b111#3, .delay] :=
  ⟨box_does _ _ [] rfl, by decide⟩
/-- The POLL of an Exposure iteration, Start pressed (R148, R150): the counter moves on, the countdown is next. -/
theorem witness_exposurePoll :
    let s : State := { box { idling with ctl := .exposure, startHold := 498 } with ms := 5, pins := some ⟨0#1, 1#1⟩ }
    s.hostPolls ∧ s.main.ctl = .exposure ∧ ∃ t, step s = .next t ∧ t.main.startHold = 499 ∧ t.main.todo = [.countdown 0b01#2] :=
  ⟨⟨rfl, rfl, rfl, rfl⟩, rfl, ⟨_, rfl, by decide, by decide⟩⟩
/-- A lamps-off turn with the exit drain behind it (R171): the drain stays. -/
theorem witness_lampsOff :
    let s : State := { box { idling with ctl := .exposure, todo := [.lampsOff, .drain (some .idle)] } with uv := 0b11#2 }
    s.hostDoes .lampsOff ∧ s.main.todo = .lampsOff :: [.drain (some .idle)] ∧
    (nextOf (step s)).map (fun t => (t.uv, t.main.todo)) = some (0b00#2, [.drain (some .idle)]) :=
  ⟨box_does _ _ _ rfl, rfl, by decide⟩
theorem witness_loadTurn : (box MainCtl.boot).hostDoes .load ∧ (box MainCtl.boot).main.todo = .load :: [.start] ∧
    (box MainCtl.boot).cfg.nvAddr + 1 < (box MainCtl.boot).cfg.nvSize := ⟨box_does _ _ _ rfl, rfl, by decide⟩
theorem witness_startTurn : (box { idling with todo := [.start] }).hostDoes .start := box_does _ _ [] rfl
/-- A DELAY between two POLLs of a drain (R149, R151): only it leaves the list. -/
theorem witness_delay :
    let s : State := box { idling with todo := [.delay, .drain none] }
    s.hostDoes .delay ∧ s.main.todo = .delay :: [.drain none] ∧
    (nextOf (step s)).map (·.main) = some { idling with todo := [.drain none] } :=
  ⟨box_does _ _ _ rfl, rfl, by decide⟩
theorem witness_remaining : ((2000 : Int) - 10 + 2 ^ 32) % 2 ^ 32 ≤ ((2010 : Int) - 10 + 2 ^ 32) % 2 ^ 32 := by decide
theorem witness_setup : Config.default.secStep = 5 ∧ idling.minutes = 0 ∧ idling.seconds = 0 ∧
    (0b001100#6).extractLsb' 0 2 = 0b00#2 := by decide
/-- A Mode press in the minutes edit (R159): the minutes stay, the drain into the seconds edit is next. -/
theorem witness_setupEdits :
    let s : State := { box { idling with ctl := .setupMin, minutes := 9 } with ms := 5, pins := some ⟨1#1, 0#1⟩ }
    s.hostPolls ∧ s.main.minutes ≤ 9 ∧ s.main.seconds ≤ 59 ∧ ∃ t, step s = .next t ∧
      t.main.minutes = 9 ∧ t.main.todo.head? = some (.drain (some .setupSec)) :=
  ⟨⟨rfl, rfl, rfl, rfl⟩, by decide, by decide, ⟨_, rfl, by decide, by decide⟩⟩
/-- A Mode press in the seconds edit (R162): the duration is taken anew, the SAVE is next. -/
theorem witness_setupCommits :
    let s : State := { box { idling with ctl := .setupSec, minutes := 9, seconds := 55 } with ms := 5, pins := some ⟨0#1, 0#1⟩ }
    s.hostPolls ∧ ∃ t, step s = .next t ∧ t.main.duration = 540#16 ∧ t.main.todo.head? = some .commit :=
  ⟨⟨rfl, rfl, rfl, rfl⟩, ⟨_, rfl, by decide, by decide⟩⟩
theorem witness_idleShows : (box idling).hostPolls ∧ idling.ctl = .idle ∧
    ({ Config.default with idleDots := some 0xFF#8 } : Config).idleDots = some 0xFF#8 := ⟨box_polls _ rfl, rfl, rfl⟩
theorem witness_commit : (box { idling with duration := 125#16, todo := [.commit] }).hostDoes .commit := box_does _ _ [] rfl
theorem witness_setupBlinks_min :
    (box { idling with ctl := .setupMin, minutes := 9 }).hostPolls ∧ idling.seconds ≤ 59 := ⟨box_polls _ rfl, by decide⟩
theorem witness_setupBlinks_sec :
    (box { idling with ctl := .setupSec, seconds := 55, blink := 256 }).hostPolls ∧ idling.minutes ≤ 9 :=
  ⟨box_polls _ rfl, by decide⟩
theorem witness_refreshTurn :
    (box { idling with blink := 511, todo := [.refresh 5#16 0xFF#8 0b111#3] }).hostDoes (.refresh 5#16 0xFF#8 0b111#3) :=
  box_does _ _ [] rfl

end Sys2Proof.Tests
end

/-! The scope statements: LOAD and SAVE by the size of the store (R5, R53), and the parameters over every step (R5, R13). -/

namespace Sys2Proof.Machine

/-! ### LOAD and SAVE, inside the store and outside it -/

theorem exec_load_of_lt {s : State} (h : s.cfg.nvAddr + 1 < s.cfg.nvSize) :
    exec .load s = .next (s.answer (some (.duration (normalise s.cfg
      (assemble s.cfg.nvEndian (s.nv.read s.cfg.nvAddr) (s.nv.read (s.cfg.nvAddr + 1))))))) := by
  simp only [exec, execLoad, State.nvRead16_eq, if_pos h]

theorem exec_load_of_le {s : State} (h : s.cfg.nvSize ≤ s.cfg.nvAddr + 1) : exec .load s = .fault .nvAbsent := by
  simp only [exec, execLoad, State.nvRead16_eq, if_neg h.not_gt]

theorem exec_save_of_lt {s : State} (dur : Seconds) (h : s.cfg.nvAddr + 1 < s.cfg.nvSize) :
    exec (.save dur) s = .next ((s.setNv ((s.nv.write s.cfg.nvAddr ((split s.cfg.nvEndian dur).getD 0 0)).write
      (s.cfg.nvAddr + 1) ((split s.cfg.nvEndian dur).getD 1 0))).answer none) := by
  simp only [exec, execSave, State.nvWrite16_eq, if_pos h]

theorem exec_save_of_le {s : State} (dur : Seconds) (h : s.cfg.nvSize ≤ s.cfg.nvAddr + 1) :
    exec (.save dur) s = .fault .nvAbsent := by
  simp only [exec, execSave, State.nvWrite16_eq, if_neg h.not_gt]

theorem exec_load_fault_iff (s : State) : exec .load s = .fault .nvAbsent ↔ s.cfg.nvSize ≤ s.cfg.nvAddr + 1 := by
  refine ⟨fun hf => ?_, exec_load_of_le⟩
  by_contra hin
  rw [exec_load_of_lt (not_le.mp hin)] at hf
  cases hf

theorem exec_save_fault_iff (s : State) (dur : Seconds) :
    exec (.save dur) s = .fault .nvAbsent ↔ s.cfg.nvSize ≤ s.cfg.nvAddr + 1 := by
  refine ⟨fun hf => ?_, exec_save_of_le dur⟩
  by_contra hin
  rw [exec_save_of_lt dur (not_le.mp hin)] at hf
  cases hf

/-- Settles O28: inside the store both operations answer a next state, outside it both fault. -/
theorem storeOutsideItsSizeFaults : Obligations.StoreOutsideItsSizeFaults :=
  fun s dur => ⟨exec_load_fault_iff s, exec_save_fault_iff s dur⟩

/-! ### The parameters under the timer, a power cycle and the two kinds of host -/

@[simp] theorem State.tick_cfg (s : State) : s.tick.cfg = s.cfg := rfl

@[simp] theorem State.timerOverflow_cfg (s : State) : s.timerOverflow.cfg = s.cfg := by
  unfold State.timerOverflow
  split
  · exact s.tick_cfg
  · exact s.setTickPend_cfg true

@[simp] theorem State.deliverHeld_cfg (s : State) : s.deliverHeld.cfg = s.cfg := rfl

@[simp] theorem State.powerCycle_cfg (s : State) : s.powerCycle.cfg = s.cfg := rfl

theorem listTurn_keeps_cfg {s t : State} (h : listTurn s = .next t) : t.cfg = s.cfg := by
  obtain ⟨_, rest, _, _, _, hx⟩ := listTurn_next h
  exact (exec_keeps hx).1.trans (s.setCmds_cfg rest)

theorem hostAct_keeps_cfg {a : HostAct} {s t : State} (h : hostAct a s = .next t) : t.cfg = s.cfg := by
  obtain ⟨_, rfl⟩ | ⟨_, u, _, hx, rfl⟩ := hostAct_next h
  · rfl
  · exact (u.setMain_cfg _).trans (exec_keeps hx).1

theorem mainTurn_keeps_cfg {s t : State} (h : mainTurn s = .next t) : t.cfg = s.cfg := by
  obtain ⟨_, u, hx, rfl⟩ | ⟨_, rest, _, ha⟩ := mainTurn_next h
  · exact (u.setMain_cfg _).trans (exec_keeps hx).1
  · exact (hostAct_keeps_cfg ha).trans (s.setMain_cfg _)

theorem step_keeps_cfg {s t : State} (h : step s = .next t) : t.cfg = s.cfg := by
  obtain ⟨_, rfl⟩ | ⟨_, ⟨_, rfl⟩ | ⟨p, _, rfl⟩ | ⟨_, rfl⟩ | ⟨_, _, hl⟩ | ⟨_, _, hm⟩⟩ := step_cases h
  · exact s.deliverHeld_cfg
  · exact s.nextTurn.2.timerOverflow_cfg.trans s.nextTurn_cfg
  · exact (s.nextTurn.2.setPins_cfg p).trans s.nextTurn_cfg
  · exact s.nextTurn.2.powerCycle_cfg.trans s.nextTurn_cfg
  · exact (listTurn_keeps_cfg hl).trans s.nextTurn_cfg
  · exact (mainTurn_keeps_cfg hm).trans s.nextTurn_cfg

/-- Settles O8: by the move of each agent, held overflow and power cycle included. -/
theorem parametersNeverChange : Obligations.ParametersNeverChange :=
  fun _ _ => step_keeps_cfg

end Sys2Proof.Machine

/-! The state's statements: what a turn does, the frame of every operation, the flags of POLL, and the block's invariant. -/

namespace Sys2Proof.Machine

/-! ### One turn of an agent, and the command port (R13, R24, R70) -/

theorem step_of_tickHeld {s : State} (h : s.tickHeld = true) : step s = .next s.deliverHeld := if_pos h

theorem step_of_turn {s : State} {a : Turn} (h : s.tickHeld = false) (ha : s.nextTurn.1 = a) :
    step s = takeTurn a s.nextTurn.2 :=
  (if_neg (by simp [h])).trans (by rw [ha])

theorem hostTurn_of_commandList {s : State} (h : s.driver = .commandList) : hostTurn s = listTurn s := by
  simp only [hostTurn, h]

theorem listTurn_of_nil {s : State} (h : s.cmds = []) : listTurn s = .fault .endOfRun := by
  simp only [listTurn, h]

theorem listTurn_of_decode {s : State} {w : CommandWord} {rest : List CommandWord} {i : Instr} (h : s.cmds = w :: rest)
    (hi : decode w = .ok i) : listTurn s = exec i (s.setCmds rest) := by
  simp only [listTurn, h, issueWord, hi]

/-- Settles O5: the turn is the host's, its list's next word is `w`, and `w` spells `i`. -/
theorem stepPerformsTheDecodedOperation : Obligations.StepPerformsTheDecodedOperation := by
  intro s w rest i ⟨hheld, hturn, hdriver, hcmds⟩ hi
  calc step s
    _ = hostTurn s.nextTurn.2 := step_of_turn hheld hturn
    _ = listTurn s.nextTurn.2 := hostTurn_of_commandList (s.nextTurn_driver.trans hdriver)
    _ = exec i (s.nextTurn.2.setCmds rest) := listTurn_of_decode (s.nextTurn_cmds.trans hcmds) hi

theorem decode_of_decodeTableWord {n w : Nat} {i : Instr} (h : decodeTableWord n w = some i) :
    decode (BitVec.ofNat 32 (w % 2 ^ n)) = .ok i := by
  unfold decodeTableWord at h
  split at h
  · rename_i j hj
    cases h
    exact hj
  · cases h

/-- The hand-over of log entry 7 puts the word at the command port, the host's turn next. -/
theorem withFetchWord_atCommandPort (s : State) (n w : Nat) :
    AtCommandPort (s.withFetchWord n w) (BitVec.ofNat 32 (w % 2 ^ n)) s.cmds :=
  ⟨Bool.and_false _, rfl, rfl, rfl⟩

/-- Settles O6: the word is at the command port, and performing it uses up what the hand-over laid down. -/
theorem placedWordIsPerformedNext : Obligations.PlacedWordIsPerformedNext := fun s w i h =>
  stepPerformsTheDecodedOperation (s.withFetchWord 32 w) _ s.cmds i (withFetchWord_atCommandPort s 32 w)
    (decode_of_decodeTableWord h)

/-- Settles O7: the turn is the host's, and its list has no word left. -/
theorem endOfListEndsTheRun : Obligations.EndOfListEndsTheRun := by
  intro s hheld hturn hdriver hcmds
  calc step s
    _ = hostTurn s.nextTurn.2 := step_of_turn hheld hturn
    _ = listTurn s.nextTurn.2 := hostTurn_of_commandList (s.nextTurn_driver.trans hdriver)
    _ = .fault .endOfRun := listTurn_of_nil (s.nextTurn_cmds.trans hcmds)

/-! ### The held overflow (R25, R184) -/

/-- Whether the parameters name the period or leave it open, the period in use is one R5 allows. -/
theorem isPeriod_tickPeriod (c : Config) : IsPeriod c (tickPeriod c) := by
  unfold IsPeriod tickPeriod
  cases c.tickUs with
  | none => exact ⟨by simp, fun _ => ⟨Nat.le_add_left 1 _, Config.openPeriod.isLt⟩⟩
  | some us => exact ⟨by simp, by simp⟩

theorem State.tickHeld_of_disabled {s : State} (h : s.ie = false) : s.tickHeld = false := by simp [State.tickHeld, h]

theorem State.tickHeld_of_pending {s : State} (hi : s.ie = true) (hp : s.tickPend = true) : s.tickHeld = true := by
  simp [State.tickHeld, hi, hp]

theorem State.timerOverflow_disabled {s : State} (h : s.ie = false) : s.timerOverflow = s.setTickPend true := by
  simp [State.timerOverflow, h]

theorem State.timerOverflow_enabled {s : State} (h : s.ie = true) : s.timerOverflow = s.tick := if_pos h

/-- Settles O14: the three clauses are the overflow with `IE = 0`, the delivery with `IE = 1`, and NOW's window closing. -/
theorem heldOverflowIsDelivered : Obligations.HeldOverflowIsDelivered := by
  refine ⟨fun s hie hturn => ?_, fun s hie hpend hms => ⟨tickPeriod s.cfg, isPeriod_tickPeriod s.cfg, ?_⟩,
    fun s t hpend h => ?_⟩
  · calc step s
      _ = .next s.nextTurn.2.timerOverflow := step_of_turn (State.tickHeld_of_disabled hie) hturn
      _ = .next (s.nextTurn.2.setTickPend true) := by rw [State.timerOverflow_disabled (s.nextTurn_ie.trans hie)]
  · calc step s
      _ = .next (s.setTickPend false).tick := step_of_tickHeld (State.tickHeld_of_pending hie hpend)
      _ = .next ((s.setTickPend false).setClock ((s.ms + (s.fract + tickPeriod s.cfg) / 1000) % 2 ^ s.cfg.w)
            ((s.fract + tickPeriod s.cfg) % 1000)) := congrArg _ (State.tick_eq _ hms)
  · rw [execNow_next h]
    exact State.tickHeld_of_pending rfl hpend

/-! ### POLL (R29, R100, R101) -/

/-- The model's qualifying test is the rule's, on the integers (R101). -/
theorem State.qualifies_iff (s : State) : s.qualifies s.ms = true ↔ Qualifies s := by
  have hsub := subW_cast s.cfg.w s.ms s.btnT
  push_cast at hsub
  rw [State.qualifies, decide_eq_true_iff, Qualifies, Int.add_emod_right, ← hsub, Int.ofNat_le]

@[simp] theorem State.pinRead_setIe (s : State) (b : Bool) :
    (s.setIe b).pinRead = (s.pinRead.1, s.pinRead.2.setIe b) := by
  unfold State.pinRead
  rw [State.setIe_pins]
  cases s.pins with
  | none => rfl
  | some p => rfl

/-- A qualifying call takes the pins and stamps `BTN_T` (R100). -/
theorem execPoll_of_qualifies {s : State} (h : s.qualifies s.ms = true) :
    execPoll s = .next ((((s.pinRead.2.setIe true).setBtnT s.ms).setButtons (buttonsOfPins s.pinRead.1) s.btnCur).answer
      (some (.buttons (pollWord (buttonsOfPins s.pinRead.1) s.btnCur)))) := by
  have hq : (s.setIe true).qualifies s.ms = true := h
  simp only [execPoll, State.readClock_eq, State.sample, hq, if_true, State.pinRead_setIe, State.setIe_btnCur]

/-- Any other call reuses the last-accepted state (R100). -/
theorem execPoll_of_not_qualifies {s : State} (h : s.qualifies s.ms = false) :
    execPoll s = .next (((s.setIe true).setButtons s.btnCur s.btnCur).answer
      (some (.buttons (pollWord s.btnCur s.btnCur)))) := by
  have hq : (s.setIe true).qualifies s.ms = false := h
  simp only [execPoll, State.readClock_eq, State.sample, hq, Bool.false_eq_true, if_false, State.setIe_btnCur]

/-- All a POLL can write (R20): `IE`, the three button registers and the count of draws; `BTN_T` takes `MS` or stays, and the
answer is the word of the two button registers written. -/
theorem execPoll_cases {s t : State} (h : execPoll s = .next t) :
    ∃ cur stamp n, (stamp = s.ms ∨ stamp = s.btnT) ∧
      t = { s with
        ie := true, btnCur := cur, btnPrev := s.btnCur, btnT := stamp, draws := n
        result := some (.buttons (pollWord cur s.btnCur)) } := by
  cases hq : s.qualifies s.ms with
  | false =>
    rw [execPoll_of_not_qualifies hq] at h
    cases h
    exact ⟨s.btnCur, s.btnT, s.draws, .inr rfl, rfl⟩
  | true =>
    rw [execPoll_of_qualifies hq] at h
    cases h
    obtain ⟨p, _, hp⟩ | ⟨_, hp⟩ := s.pinRead_cases
    · rw [hp]
      exact ⟨_, s.ms, s.draws, .inl rfl, rfl⟩
    · rw [hp]
      exact ⟨_, s.ms, s.draws + 1, .inl rfl, rfl⟩

/-- Bit by bit, POLL's answer is the button set and its two edge sets (R29, R83). -/
theorem getLsbD_pollWord (cur prev : Buttons) {b : Nat} (h : b < 2) :
    (pollWord cur prev).getLsbD b = cur.getLsbD b ∧
    (pollWord cur prev).getLsbD (2 + b) = (cur.getLsbD b && !prev.getLsbD b) ∧
    (pollWord cur prev).getLsbD (4 + b) = (!cur.getLsbD b && prev.getLsbD b) := by
  have field (k : Nat) : ((pollWord cur prev).extractLsb' k 2).getLsbD b = (pollWord cur prev).getLsbD (k + b) := by
    simp [h]
  refine ⟨?_, ?_, ?_⟩
  · rw [← Nat.zero_add b, ← field 0, Nat.zero_add]
    exact congrArg (·.getLsbD b) (currentOf_pollWord cur prev)
  · rw [← field 2, ← getLsbD_pressedSet cur prev b h]
    exact congrArg (·.getLsbD b) (pressedOf_pollWord cur prev)
  · rw [← field 4, ← getLsbD_releasedSet cur prev b h]
    exact congrArg (·.getLsbD b) (releasedOf_pollWord cur prev)

theorem exec_result_ne_buttons {i : Instr} {s t : State} (hi : i ≠ .poll) (h : exec i s = .next t) (r : BitVec 6) :
    t.result ≠ some (.buttons r) := by
  cases i with
  | poll => exact absurd rfl hi
  | now => rw [execNow_next h]; simp
  | refresh time dots mask => rw [execRefresh_next h]; simp
  | load => obtain ⟨raw, _, rfl⟩ := execLoad_next h; simp
  | save dur => obtain ⟨u, _, rfl⟩ := execSave_next h; simp
  | showMode sel => obtain ⟨m, _, rfl⟩ := execShow_next h; simp
  | chan sel => rw [execChan_next h]; simp

/-- Settles O16: POLL answers the word of the registers it writes, every other operation another kind of answer, and at reset state
`MS -_W BTN_T = 0` does not qualify. -/
theorem pollReturnsTheEdgeSets : Obligations.PollReturnsTheEdgeSets := by
  refine ⟨fun s t r b h hr hb => ?_, fun i s t r hi h => exec_result_ne_buttons hi h r, fun t h => ?_⟩
  · obtain ⟨cur, stamp, n, _, rfl⟩ := execPoll_cases h
    cases hr
    obtain ⟨hcur, hpressed, hreleased⟩ := getLsbD_pollWord cur s.btnCur hb
    refine ⟨hcur, hpressed, hreleased, ?_⟩
    rw [hpressed, hreleased]
    cases cur.getLsbD b <;> simp
  · have hq : State.reset.qualifies State.reset.ms = false := by decide
    rw [show exec .poll State.reset = _ from execPoll_of_not_qualifies hq] at h
    cases h
    rfl

/-! ### The environment (R30, R105) -/

theorem execPoll_of_levels {s : State} {p : Pins} (h : s.qualifies s.ms = true) (hp : s.pins = some p) :
    execPoll s = .next ((((s.setIe true).setBtnT s.ms).setButtons (buttonsOfPins p) s.btnCur).answer
      (some (.buttons (pollWord (buttonsOfPins p) s.btnCur)))) := by
  have hread : s.pinRead = (p, s) := by simp only [State.pinRead, hp]
  rw [execPoll_of_qualifies h, hread]

/-- Settles O34: the environment's turn sets the levels; laying levels down does not touch the qualifying test, and a qualifying
POLL reads them without a draw. -/
theorem environmentSetsThePinsOnly : Obligations.EnvironmentSetsThePinsOnly := by
  refine ⟨fun s p hheld hturn => step_of_turn hheld hturn, fun s t p hq h => ?_⟩
  have hq' : (s.setPins (some p)).qualifies (s.setPins (some p)).ms = true := s.qualifies_iff.mpr hq
  rw [show exec .poll (s.setPins (some p)) = _ from execPoll_of_levels hq' rfl] at h
  cases h
  exact ⟨rfl, rfl⟩

/-! ### The frame of the operations (R20) -/

theorem exec_save_next {s t : State} {dur : Seconds} (h : exec (.save dur) s = .next t) :
    s.cfg.nvAddr + 1 < s.cfg.nvSize ∧ ∃ b0 b1,
      t = (s.setNv ((s.nv.write s.cfg.nvAddr b0).write (s.cfg.nvAddr + 1) b1)).answer none := by
  obtain hlt | hle := lt_or_ge (s.cfg.nvAddr + 1) s.cfg.nvSize
  · rw [exec_save_of_lt dur hlt] at h
    cases h
    exact ⟨hlt, _, _, rfl⟩
  · rw [exec_save_of_le dur hle] at h
    cases h

/-- Settles O32: operation by operation, from what each can write. -/
theorem operationsWriteOnlyTheirRegisters : Obligations.OperationsWriteOnlyTheirRegisters := by
  intro i s t h
  cases i with
  | now => rw [execNow_next h]; simp
  | poll =>
    obtain ⟨cur, stamp, n, _, rfl⟩ := execPoll_cases h
    simp
  | refresh time dots mask => rw [execRefresh_next h]; simp
  | load =>
    obtain ⟨raw, _, rfl⟩ := execLoad_next h
    simp
  | save dur =>
    obtain ⟨_, b0, b1, rfl⟩ := exec_save_next h
    simp
  | showMode sel =>
    obtain ⟨m, _, rfl⟩ := execShow_next h
    simp
  | chan sel => rw [execChan_next h]; simp

/-! ### What a turn of the host keeps -/

/-- A property of the block that every operation keeps, and the host's own bookkeeping too: its command list and its variables. -/
structure HostKeeps (P : State → Prop) : Prop where
  setCmds : ∀ (s : State) (ws : List CommandWord), P s → P (s.setCmds ws)
  setMain : ∀ (s : State) (m : MainCtl), P s → P (s.setMain m)
  exec : ∀ (i : Instr) (s t : State), exec i s = .next t → P s → P t

section

variable {P : State → Prop} {s t : State}

theorem HostKeeps.listTurn (hP : HostKeeps P) (h : listTurn s = .next t) (hs : P s) : P t := by
  obtain ⟨_, rest, i, _, _, hx⟩ := listTurn_next h
  exact hP.exec i _ t hx (hP.setCmds s rest hs)

theorem HostKeeps.hostAct (hP : HostKeeps P) {a : HostAct} (h : hostAct a s = .next t) (hs : P s) : P t := by
  obtain ⟨_, rfl⟩ | ⟨i, u, _, hx, rfl⟩ := hostAct_next h
  · exact hs
  · exact hP.setMain u _ (hP.exec i s u hx hs)

theorem HostKeeps.mainTurn (hP : HostKeeps P) (h : mainTurn s = .next t) (hs : P s) : P t := by
  obtain ⟨_, u, hx, rfl⟩ | ⟨a, rest, _, ha⟩ := mainTurn_next h
  · exact hP.setMain u _ (hP.exec .poll s u hx hs)
  · exact hP.hostAct ha (hP.setMain s _ hs)

end

/-! ### The clock's one writer (R39) -/

/-- The clock registers hold these values. -/
def ClockIs (ms fract : Nat) (s : State) : Prop := s.ms = ms ∧ s.fract = fract

theorem hostKeeps_clockIs (ms fract : Nat) : HostKeeps (ClockIs ms fract) where
  setCmds _ _ := id
  setMain _ _ := id
  exec i s t h hs := by
    obtain ⟨⟨_, hms, hfract, _⟩, _⟩ := operationsWriteOnlyTheirRegisters i s t h
    exact ⟨hms.trans hs.1, hfract.trans hs.2⟩

/-- Settles O13: the environment's turn and both kinds of host keep the clock, and so does an overflow with `IE = 0`. -/
theorem onlyTicksWriteTheClock : Obligations.OnlyTicksWriteTheClock := by
  intro s t h hne
  have start : ClockIs s.ms s.fract s.nextTurn.2 := ⟨s.nextTurn_ms, s.nextTurn_fract⟩
  have moved : ¬ ClockIs s.ms s.fract t := fun ht => hne.elim (· ht.1) (· ht.2)
  obtain ⟨hheld, _⟩ | ⟨_, ⟨hturn, rfl⟩ | ⟨p, _, rfl⟩ | ⟨hturn, _⟩ | ⟨_, _, hl⟩ | ⟨_, _, hm⟩⟩ := step_cases h
  · exact .inl hheld
  · cases hie : s.ie with
    | true => exact .inr (.inl ⟨hturn, rfl⟩)
    | false =>
      rw [State.timerOverflow_disabled (s.nextTurn_ie.trans hie)] at moved
      exact absurd start moved
  · exact absurd start moved
  · exact .inr (.inr hturn)
  · exact absurd ((hostKeeps_clockIs _ _).listTurn hl start) moved
  · exact absurd ((hostKeeps_clockIs _ _).mainTurn hm start) moved

/-! ### The block's invariant (R21, R22, R25, R28, R32, R50) -/

theorem atMostOneDigit_digitEnable (i : Fin 3) (mask : BitVec 3) : atMostOneDigit (digitEnable i mask) = true := by
  revert i mask
  decide

/-- A byte written inside the store lists no offset outside it. -/
theorem Memory.write_in {m : Memory} {n a : Nat} (b : Byte) (ha : a < n) (hm : ∀ c ∈ m, c.1 < n) :
    ∀ c ∈ m.write a b, c.1 < n := by
  intro c hc
  obtain hc | rfl := Memory.mem_write hc
  · exact hm c hc
  · exact ha

theorem BlockInv.nextTurn {s : State} (h : BlockInv s) : BlockInv s.nextTurn.2 := by
  obtain ⟨_, _, _, e⟩ | ⟨_, e⟩ := s.nextTurn_cases
  · rw [e]; exact { h with }
  · rw [e]; exact { h with }

/-- A tick brings both clock registers into their ranges (R21, R22). -/
theorem BlockInv.tick {s : State} (h : BlockInv s) : BlockInv s.tick := by
  rw [State.tick_eq s h.ms_lt]
  exact { h with
    ms_lt := Nat.mod_lt _ (Nat.two_pow_pos _)
    fract_le := Nat.le_of_lt_succ (Nat.mod_lt _ (by decide)) }

/-- The reset values lie in their ranges; the parameters and the store stay (R205). -/
theorem BlockInv.powerCycle {s : State} (h : BlockInv s) : BlockInv s.powerCycle :=
  { h with
    ms_lt := Nat.two_pow_pos _
    fract_le := Nat.zero_le _
    enabled := rfl
    none_held := rfl
    btnT_lt := Nat.two_pow_pos _
    one_digit := rfl }

theorem exec_keeps_blockInv (i : Instr) (s t : State) (h : exec i s = .next t) (hs : BlockInv s) : BlockInv t := by
  cases i with
  | now => rw [execNow_next h]; exact { hs with enabled := rfl }
  | poll =>
    obtain ⟨cur, stamp, n, rfl | rfl, rfl⟩ := execPoll_cases h
    · exact { hs with enabled := rfl, btnT_lt := hs.ms_lt }
    · exact { hs with enabled := rfl }
  | refresh time dots mask =>
    rw [execRefresh_next h]
    exact { hs with one_digit := atMostOneDigit_digitEnable s.cursor mask }
  | load => obtain ⟨raw, _, rfl⟩ := execLoad_next h; exact { hs with }
  | save dur =>
    obtain ⟨hlt, b0, b1, rfl⟩ := exec_save_next h
    exact { hs with
      store_wf := Memory.wf_write _ b1 (Memory.wf_write _ b0 hs.store_wf)
      store_in := Memory.write_in b1 hlt (Memory.write_in b0 (Nat.lt_of_succ_lt hlt) hs.store_in) }
  | showMode sel => obtain ⟨m, _, rfl⟩ := execShow_next h; exact { hs with }
  | chan sel => rw [execChan_next h]; exact { hs with }

theorem hostKeeps_blockInv : HostKeeps BlockInv where
  setCmds _ _ h := { h with }
  setMain _ _ h := { h with }
  exec := exec_keeps_blockInv

/-- Settles O37: no overflow is held in a legal state, so some agent moves, and each agent's move keeps the invariant. -/
theorem stepKeepsTheBlockInvariant : Obligations.StepKeepsTheBlockInvariant := by
  intro s t hs h
  have hn : BlockInv s.nextTurn.2 := hs.nextTurn
  obtain ⟨hheld, _⟩ | ⟨_, ⟨_, rfl⟩ | ⟨p, _, rfl⟩ | ⟨_, rfl⟩ | ⟨_, _, hl⟩ | ⟨_, _, hm⟩⟩ := step_cases h
  · simp [State.tickHeld, hs.none_held] at hheld
  · rw [State.timerOverflow_enabled hn.enabled]
    exact hn.tick
  · exact { hn with }
  · exact hn.powerCycle
  · exact hostKeeps_blockInv.listTurn hl hn
  · exact hostKeeps_blockInv.mainTurn hm hn

end Sys2Proof.Machine

/-! The store's statements: which operations and turns write it, which bytes a SAVE leaves, and a SAVE performed twice. -/

namespace Sys2Proof.Machine

/-! ### A write over a write (R56) -/

/-- The later of two bytes written at one offset stands. -/
@[simp] theorem Memory.write_write_same (m : Memory) (a : Nat) (b b' : Byte) :
    (m.write a b).write a b' = m.write a b' := by
  induction m with
  | nil => simp [Memory.write]
  | cons c m ih =>
    obtain hlt | heq | hgt := Nat.lt_trichotomy a c.1
    · simp [Memory.write, hlt]
    · simp [Memory.write, heq]
    · simp [Memory.write, hgt.not_gt, hgt.ne', ih]

/-- Bytes written at two offsets may change places, whatever list they are written to. -/
theorem Memory.write_comm (m : Memory) {a a' : Nat} (h : a < a') (b b' : Byte) :
    (m.write a b).write a' b' = (m.write a' b').write a b := by
  induction m with
  | nil => simp [Memory.write, h, h.not_gt, h.ne']
  | cons c m ih =>
    obtain hlt | rfl | hgt := Nat.lt_trichotomy a c.1
    · obtain hlt' | rfl | hgt' := Nat.lt_trichotomy a' c.1
      · simp [Memory.write, hlt, hlt', h, h.not_gt, h.ne']
      · simp [Memory.write, h, h.not_gt, h.ne']
      · simp [Memory.write, hlt, h.not_gt, h.ne', hgt'.not_gt, hgt'.ne']
    · simp [Memory.write, h.not_gt, h.ne']
    · have hgt' : c.1 < a' := hgt.trans h
      simp [Memory.write, hgt.not_gt, hgt.ne', hgt'.not_gt, hgt'.ne', ih]

/-- Two bytes written once more, at the same offsets in the same order, change nothing. -/
theorem Memory.write_pair_again (m : Memory) {a a' : Nat} (h : a < a') (b b' : Byte) :
    (((m.write a b).write a' b').write a b).write a' b' = (m.write a b).write a' b' := by
  rw [← Memory.write_comm _ h, Memory.write_write_same, Memory.write_write_same]

/-- Settles O26: the second SAVE writes the same two bytes at the same two offsets. -/
theorem saveIsIdempotent : Obligations.SaveIsIdempotent := by
  intro s t dur h
  obtain ⟨hlt, _⟩ := exec_save_next h
  have hlt' : t.cfg.nvAddr + 1 < t.cfg.nvSize := by rwa [(exec_keeps h).1]
  rw [exec_save_of_lt dur hlt] at h
  rw [exec_save_of_lt dur hlt']
  cases h
  simp only [State.answer_nv, State.setNv_nv, State.answer_cfg, State.setNv_cfg,
    Memory.write_pair_again _ s.cfg.nvAddr.lt_succ_self]
  rfl

/-! ### The store's one writer (R50) -/

/-- Of the operations only SAVE writes the store, operation by operation. -/
theorem exec_save_or_keeps_nv {i : Instr} {s t : State} (h : exec i s = .next t) :
    (∃ dur, i = .save dur) ∨ t.nv = s.nv := by
  cases i with
  | save dur => exact .inl ⟨dur, rfl⟩
  | now => rw [execNow_next h]; exact .inr rfl
  | poll => obtain ⟨_, _, _, _, rfl⟩ := execPoll_cases h; exact .inr rfl
  | refresh time dots mask => rw [execRefresh_next h]; exact .inr rfl
  | load => obtain ⟨_, _, rfl⟩ := execLoad_next h; exact .inr rfl
  | showMode sel => obtain ⟨_, _, rfl⟩ := execShow_next h; exact .inr rfl
  | chan sel => rw [execChan_next h]; exact .inr rfl

/-- A SAVE leaves every byte but the two of the stored value (R54). -/
theorem exec_save_read_other {s t : State} {dur : Seconds} {a : Nat} (h : exec (.save dur) s = .next t)
    (ha : a < s.cfg.nvAddr ∨ s.cfg.nvAddr + 1 < a) : t.nv.read a = s.nv.read a := by
  obtain ⟨_, b0, b1, rfl⟩ := exec_save_next h
  have h1 : a ≠ s.cfg.nvAddr + 1 := by omega
  have h0 : a ≠ s.cfg.nvAddr := by omega
  exact (Memory.read_write_ne _ b1 h1).trans (Memory.read_write_ne _ b0 h0)

/-- Settles O33: a SAVE keeps the bytes beside its two, and any other operation the whole store. -/
theorem operationsKeepTheOtherBytes : Obligations.OperationsKeepTheOtherBytes := by
  intro i s t h
  obtain ⟨dur, rfl⟩ | hnv := exec_save_or_keeps_nv h
  · exact ⟨fun hi => absurd rfl (hi dur), fun _ ha => exec_save_read_other h ha⟩
  · exact ⟨fun _ _ => by rw [hnv], fun _ _ => by rw [hnv]⟩

theorem exposeOp_ne_save (m : Mode) (dur : Seconds) : exposeOp m ≠ .save dur := by
  cases m <;> simp [exposeOp]

/-- The one entry of the reference host's list that issues a SAVE is the commit (R162). -/
theorem eq_commit_of_operationOf_save {a : HostAct} {m : MainCtl} {dur : Seconds} (h : operationOf a m = some (.save dur)) :
    a = .commit := by
  cases a with
  | commit => rfl
  | lampsOn => exact absurd (Option.some.inj h) (exposeOp_ne_save m.mode dur)
  | _ => cases h

@[simp] theorem State.timerOverflow_nv (s : State) : s.timerOverflow.nv = s.nv := by
  unfold State.timerOverflow
  split <;> rfl

/-- A turn of the command list writes the store only where its next word spells a SAVE (R70). -/
theorem listTurn_save_or_keeps_nv {s t : State} (h : listTurn s = .next t) :
    (∃ dur w rest, s.cmds = w :: rest ∧ decode w = .ok (.save dur)) ∨ t.nv = s.nv := by
  obtain ⟨w, rest, i, hcmds, hi, hx⟩ := listTurn_next h
  obtain ⟨dur, rfl⟩ | hnv := exec_save_or_keeps_nv hx
  · exact .inl ⟨dur, w, rest, hcmds, hi⟩
  · exact .inr hnv

/-- A turn of the reference host writes the store only where its next entry is the commit (R162). -/
theorem mainTurn_commit_or_keeps_nv {s t : State} (h : mainTurn s = .next t) :
    (∃ rest, s.main.todo = .commit :: rest) ∨ t.nv = s.nv := by
  obtain ⟨_, u, hx, rfl⟩ | ⟨a, rest, htodo, ha⟩ := mainTurn_next h
  · obtain ⟨_, hi⟩ | hnv := exec_save_or_keeps_nv hx
    · cases hi
    · exact .inr hnv
  · obtain ⟨_, rfl⟩ | ⟨i, u, hop, hx, rfl⟩ := hostAct_next ha
    · exact .inr rfl
    · obtain ⟨dur, rfl⟩ | hnv := exec_save_or_keeps_nv hx
      · exact .inl ⟨rest, eq_commit_of_operationOf_save hop ▸ htodo⟩
      · exact .inr hnv

/-- Settles O27: no agent but the host writes the store, and each kind of host only by its SAVE. -/
theorem onlySaveWritesTheStore : Obligations.OnlySaveWritesTheStore := by
  intro s t a h hne
  have moved : t.nv ≠ s.nv := fun hnv => hne (by rw [hnv])
  obtain ⟨_, rfl⟩ | ⟨hheld, ⟨_, rfl⟩ | ⟨p, _, rfl⟩ | ⟨_, rfl⟩ | ⟨hturn, hd, hl⟩ | ⟨hturn, hd, hm⟩⟩ := step_cases h
  · exact absurd rfl moved
  · exact absurd (s.nextTurn.2.timerOverflow_nv.trans s.nextTurn_nv) moved
  · exact absurd s.nextTurn_nv moved
  · exact absurd s.nextTurn_nv moved
  · rw [State.nextTurn_driver] at hd
    obtain ⟨dur, w, rest, hcmds, hi⟩ | hnv := listTurn_save_or_keeps_nv hl
    · exact .inl ⟨dur, hheld, hturn, hd, w, rest, s.nextTurn_cmds ▸ hcmds, hi⟩
    · exact absurd (hnv.trans s.nextTurn_nv) moved
  · rw [State.nextTurn_driver] at hd
    obtain ⟨rest, htodo⟩ | hnv := mainTurn_commit_or_keeps_nv hm
    · exact .inr ⟨hheld, hturn, hd, rest, s.nextTurn_main ▸ htodo⟩
    · exact absurd (hnv.trans s.nextTurn_nv) moved

end Sys2Proof.Machine

/-! The encoding's statements: the decoder and the encoder undo each other, and the refusals read off the word as a number. -/

namespace Sys2Proof.Machine

/-! ### The decoder's tests, in their order (R78) -/

theorem decode_of_opcodeOf_none {w : CommandWord} (h : opcodeOf (opField w) = none) : decode w = .error .reservedOpcode := by
  simp only [decode, h]

theorem decode_of_zeroField_set {w : CommandWord} {o : Opcode} (ho : opcodeOf (opField w) = some o)
    (hz : zeroFieldClear (formatOf o) w = false) : decode w = .error .reservedBits := by
  simp [decode, ho, hz]

theorem decode_of_zeroField_clear {w : CommandWord} {o : Opcode} (ho : opcodeOf (opField w) = some o)
    (hz : zeroFieldClear (formatOf o) w = true) : decode w = operandsOf o w := by
  simp [decode, ho, hz]

/-- What a word that spells an operation has passed. -/
theorem decode_ok {w : CommandWord} {i : Instr} (h : decode w = .ok i) :
    ∃ o, opcodeOf (opField w) = some o ∧ zeroFieldClear (formatOf o) w = true ∧ operandsOf o w = .ok i := by
  cases ho : opcodeOf (opField w) with
  | none => rw [decode_of_opcodeOf_none ho] at h; cases h
  | some o =>
    cases hz : zeroFieldClear (formatOf o) w with
    | false => rw [decode_of_zeroField_set ho hz] at h; cases h
    | true => exact ⟨o, rfl, hz, (decode_of_zeroField_clear ho hz).symm.trans h⟩

/-! ### An operation's fields, read back from its word (R71, R74) -/

section

variable (time dur : Seconds) (dots : BitVec 8) (mask : BitVec 3) (sel : BitVec 2)

@[simp] theorem secondsField_encode_refresh : secondsField (encode (.refresh time dots mask)) = time :=
  BitVec.extractLsb'_append_eq_right

@[simp] theorem dotsField_encode_refresh : dotsField (encode (.refresh time dots mask)) = dots :=
  (BitVec.extractLsb'_append_eq_of_le (Nat.le_refl 16)).trans BitVec.extractLsb'_append_eq_right

@[simp] theorem maskField_encode_refresh : maskField (encode (.refresh time dots mask)) = mask :=
  ((BitVec.extractLsb'_append_eq_of_le (by decide)).trans (BitVec.extractLsb'_append_eq_of_le (Nat.le_refl 8))).trans
    BitVec.extractLsb'_append_eq_right

@[simp] theorem secondsField_encode_save : secondsField (encode (.save dur)) = dur :=
  BitVec.extractLsb'_append_eq_right

@[simp] theorem selField_encode_showMode : selField (encode (.showMode sel)) = sel :=
  BitVec.extractLsb'_append_eq_right

@[simp] theorem selField_encode_chan : selField (encode (.chan sel)) = sel :=
  BitVec.extractLsb'_append_eq_right

end

theorem operandsOf_encode {i : Instr} (h : i.wellFormed = true) :
    operandsOf (Laws.OpcodeField.opcode i) (encode i) = .ok i := by
  cases i with
  | refresh time dots mask => simp [Laws.OpcodeField.opcode, operandsOf]
  | save dur => simp [Laws.OpcodeField.opcode, operandsOf]
  | showMode sel =>
    have hsel : sel ≠ 3#2 := by simpa [Instr.wellFormed] using h
    simp [Laws.OpcodeField.opcode, operandsOf, hsel]
  | chan sel => simp [Laws.OpcodeField.opcode, operandsOf]
  | now => rfl
  | poll => rfl
  | load => rfl

/-- Every operation's word carries its opcode and a clear zero field (R71, R72). -/
theorem encode_opcodeField (i : Instr) : Laws.OpcodeField.Statement i := by
  cases i with
  | now => exact Laws.OpcodeField.now
  | poll => exact Laws.OpcodeField.poll
  | refresh time dots mask => exact Laws.OpcodeField.refresh time dots mask
  | load => exact Laws.OpcodeField.load
  | save dur => exact Laws.OpcodeField.save dur
  | showMode sel => exact Laws.OpcodeField.showMode sel
  | chan sel => exact Laws.OpcodeField.chan sel

/-- Settles O1: the word passes the tests on its opcode and its zero field, and its fields are the operands. -/
theorem decodeOfEncode : Obligations.DecodeOfEncode := by
  intro i hwf
  obtain ⟨hop, hzero⟩ := encode_opcodeField i
  exact (decode_of_zeroField_clear hop hzero).trans (operandsOf_encode hwf)

/-! ### A word, put together again from its fields (R71) -/

/-- The field `op` of an opcode (R72). -/
def opcodeBits : Opcode → BitVec 4
  | .now => 1#4
  | .poll => 2#4
  | .refresh => 3#4
  | .load => 4#4
  | .save => 5#4
  | .showMode => 6#4
  | .chan => 7#4

/-- The opcode map has one row for each opcode, and no two with one field `op` (R72). -/
theorem opField_of_opcodeOf {b : BitVec 4} {o : Opcode} (h : opcodeOf b = some o) : b = opcodeBits o := by
  revert b
  cases o <;> decide

section

variable {w : CommandWord} {b : BitVec 4}

theorem append_of_formatN (hop : opField w = b) (hz : zeroFieldClear .n w = true) : b ++ 0#28 = w := by
  rw [← hop, ← beq_iff_eq.mp hz]
  exact BitVec.extractLsb'_append_extractLsb' (w := 4)

theorem append_of_formatR (hop : opField w = b) (hz : zeroFieldClear .r w = true) :
    b ++ 0#1 ++ maskField w ++ dotsField w ++ secondsField w = w := by
  rw [← hop, ← beq_iff_eq.mp hz]
  calc opField w ++ w.extractLsb' 27 1 ++ maskField w ++ dotsField w ++ secondsField w
    _ = w.extractLsb' 27 5 ++ maskField w ++ dotsField w ++ secondsField w :=
      congrArg (· ++ maskField w ++ dotsField w ++ secondsField w) (BitVec.extractLsb'_append_extractLsb'_eq_extractLsb' rfl)
    _ = w.extractLsb' 24 8 ++ dotsField w ++ secondsField w :=
      congrArg (· ++ dotsField w ++ secondsField w) (BitVec.extractLsb'_append_extractLsb'_eq_extractLsb' rfl)
    _ = w.extractLsb' 16 16 ++ secondsField w :=
      congrArg (· ++ secondsField w) (BitVec.extractLsb'_append_extractLsb'_eq_extractLsb' rfl)
    _ = w := BitVec.extractLsb'_append_extractLsb' (w := 16)

theorem append_of_formatS (hop : opField w = b) (hz : zeroFieldClear .s w = true) : b ++ 0#12 ++ secondsField w = w := by
  rw [← hop, ← beq_iff_eq.mp hz]
  calc opField w ++ w.extractLsb' 16 12 ++ secondsField w
    _ = w.extractLsb' 16 16 ++ secondsField w :=
      congrArg (· ++ secondsField w) (BitVec.extractLsb'_append_extractLsb'_eq_extractLsb' rfl)
    _ = w := BitVec.extractLsb'_append_extractLsb' (w := 16)

theorem append_of_formatM (hop : opField w = b) (hz : zeroFieldClear .m w = true) : b ++ 0#26 ++ selField w = w := by
  rw [← hop, ← beq_iff_eq.mp hz]
  calc opField w ++ w.extractLsb' 2 26 ++ selField w
    _ = w.extractLsb' 2 30 ++ selField w :=
      congrArg (· ++ selField w) (BitVec.extractLsb'_append_extractLsb'_eq_extractLsb' rfl)
    _ = w := BitVec.extractLsb'_append_extractLsb' (w := 30)

end

theorem operandsOf_showMode_of_ne {w : CommandWord} (h : selField w ≠ 3#2) :
    operandsOf .showMode w = .ok (.showMode (selField w)) := if_neg h

theorem operandsOf_showMode_ok {w : CommandWord} {i : Instr} (h : operandsOf .showMode w = .ok i) :
    selField w ≠ 3#2 ∧ i = .showMode (selField w) := by
  by_cases hsel : selField w = 3#2
  · rw [operandsOf, if_pos hsel] at h; cases h
  · rw [operandsOf_showMode_of_ne hsel] at h; cases h; exact ⟨hsel, rfl⟩

theorem wellFormed_of_operandsOf {o : Opcode} {w : CommandWord} {i : Instr} (h : operandsOf o w = .ok i) :
    i.wellFormed = true := by
  cases o with
  | showMode =>
    obtain ⟨hsel, rfl⟩ := operandsOf_showMode_ok h
    simpa [Instr.wellFormed] using hsel
  | _ => cases h; rfl

theorem encode_of_operandsOf {o : Opcode} {w : CommandWord} {i : Instr} (hop : opField w = opcodeBits o)
    (hz : zeroFieldClear (formatOf o) w = true) (h : operandsOf o w = .ok i) : encode i = w := by
  cases o with
  | now => cases h; exact append_of_formatN hop hz
  | poll => cases h; exact append_of_formatN hop hz
  | refresh => cases h; exact append_of_formatR hop hz
  | load => cases h; exact append_of_formatN hop hz
  | save => cases h; exact append_of_formatS hop hz
  | showMode =>
    obtain ⟨_, rfl⟩ := operandsOf_showMode_ok h
    exact append_of_formatM hop hz
  | chan => cases h; exact append_of_formatM hop hz

/-- Settles O2: the encoder puts a word's opcode, its clear zero field and its operands together again. -/
theorem encodeOfDecode : Obligations.EncodeOfDecode := by
  intro w i h
  obtain ⟨o, ho, hz, hi⟩ := decode_ok h
  exact ⟨encode_of_operandsOf (opField_of_opcodeOf ho) hz hi, wellFormed_of_operandsOf hi⟩

/-! ### The refusals, read off the word as a number (R78) -/

theorem opField_toNat (w : CommandWord) : (opField w).toNat = w.toNat / 2 ^ 28 := by
  have hw := w.isLt
  rw [opField, BitVec.extractLsb'_toNat, Nat.shiftRight_eq_div_pow]
  omega

theorem opcodeOf_eq_none_iff (b : BitVec 4) : opcodeOf b = none ↔ b.toNat = 0 ∨ 8 ≤ b.toNat := by
  revert b
  decide

theorem extractLsb'_eq_zero_iff (w : CommandWord) (lo k : Nat) :
    w.extractLsb' lo k = 0#k ↔ w.toNat / 2 ^ lo % 2 ^ k = 0 := by
  rw [← BitVec.toNat_inj, BitVec.extractLsb'_toNat, Nat.shiftRight_eq_div_pow, BitVec.toNat_ofNat, Nat.zero_mod]

/-- The statement's reserved bits are a zero field that is not clear, opcode by opcode (R71). -/
theorem hasReservedBits_iff {w : CommandWord} {o : Opcode} (hop : opField w = opcodeBits o) :
    HasReservedBits (w.toNat / 2 ^ 28) w.toNat ↔ zeroFieldClear (formatOf o) w = false := by
  rw [← opField_toNat, hop]
  cases o <;> simp [HasReservedBits, opcodeBits, formatOf, zeroFieldClear, extractLsb'_eq_zero_iff]

theorem selField_eq_three_iff (w : CommandWord) : selField w = 3#2 ↔ w.toNat % 2 ^ 2 = 3 := by
  rw [← BitVec.toNat_inj, selField, BitVec.extractLsb'_toNat]
  rfl

theorem opcodeBits_eq_six_iff (o : Opcode) : (opcodeBits o).toNat = 6 ↔ o = .showMode := by
  cases o <;> decide

/-- The statement's third test is SHOW with `sel = 3` (R78). -/
theorem reservedMode_iff {w : CommandWord} {o : Opcode} (hop : opField w = opcodeBits o) :
    (w.toNat / 2 ^ 28 = 6 ∧ w.toNat % 2 ^ 2 = 3) ↔ (o = .showMode ∧ selField w = 3#2) := by
  rw [← opField_toNat, hop, opcodeBits_eq_six_iff, selField_eq_three_iff]

/-- An opcode's operands are an operation, but for SHOW with `sel = 3` (R78). -/
theorem exists_operandsOf {o : Opcode} {w : CommandWord} (h : ¬ (o = .showMode ∧ selField w = 3#2)) :
    ∃ i, operandsOf o w = .ok i := by
  cases o with
  | showMode => exact ⟨_, operandsOf_showMode_of_ne fun hsel => h ⟨rfl, hsel⟩⟩
  | _ => exact ⟨_, rfl⟩

theorem modeOfSel_ne_none {sel : BitVec 2} (h : sel ≠ 3#2) : modeOfSel sel ≠ none := by
  revert sel
  decide

theorem exec_showMode_of_ne {s : State} {sel : BitVec 2} (h : sel ≠ 3#2) : ∃ t, exec (.showMode sel) s = .next t := by
  obtain ⟨m, hm⟩ := Option.ne_none_iff_exists'.mp (modeOfSel_ne_none h)
  refine ⟨(s.setLed (modePattern m)).answer none, ?_⟩
  simp only [exec, execShow, hm]

/-- An operation some word spells completes, LOAD and SAVE because the store has their two bytes (R5, R11). -/
theorem exec_completes {i : Instr} {s : State} (hwf : i.wellFormed = true) (hs : s.cfg.nvAddr + 1 < s.cfg.nvSize) :
    ∃ t, exec i s = .next t := by
  cases i with
  | load => exact ⟨_, exec_load_of_lt hs⟩
  | save dur => exact ⟨_, exec_save_of_lt dur hs⟩
  | showMode sel => exact exec_showMode_of_ne (by simpa [Instr.wellFormed] using hwf)
  | _ => exact ⟨_, rfl⟩

theorem listTurn_of_decode_error {s : State} {w : CommandWord} {rest : List CommandWord} {e : DecodeError}
    (h : s.cmds = w :: rest) (he : decode w = .error e) : listTurn s = .refused (refusalOf e) := by
  simp only [listTurn, h, issueWord, he]

/-- A word at the command port that spells no operation ends the run there, for the decoder's reason (R78). -/
theorem step_of_decode_error {s : State} {w : CommandWord} {rest : List CommandWord} {e : DecodeError}
    (h : AtCommandPort s w rest) (he : decode w = .error e) : step s = .refused (refusalOf e) := by
  obtain ⟨hheld, hturn, hdriver, hcmds⟩ := h
  calc step s
    _ = hostTurn s.nextTurn.2 := step_of_turn hheld hturn
    _ = listTurn s.nextTurn.2 := hostTurn_of_commandList (s.nextTurn_driver.trans hdriver)
    _ = .refused (refusalOf e) := listTurn_of_decode_error (s.nextTurn_cmds.trans hcmds) he

/-- A word at the command port that spells an operation completes (R5, R70). -/
theorem step_completes {s : State} {w : CommandWord} {rest : List CommandWord} {i : Instr} (h : AtCommandPort s w rest)
    (hi : decode w = .ok i) (hs : s.cfg.nvAddr + 1 < s.cfg.nvSize) : ∃ t, step s = .next t := by
  obtain ⟨_, hwf⟩ := encodeOfDecode w i hi
  rw [stepPerformsTheDecodedOperation s w rest i h hi]
  exact exec_completes hwf (by simpa using hs)

/-- Settles O4: each test of the statement, on the number, is the decoder's test on the word's field. -/
theorem refusalReasonsInOrder : Obligations.RefusalReasonsInOrder := by
  intro s w rest hport op
  have hnone : op = 0 ∨ 8 ≤ op ↔ opcodeOf (opField w) = none := by rw [opcodeOf_eq_none_iff, opField_toNat]
  cases ho : opcodeOf (opField w) with
  | none =>
    rw [if_pos (hnone.mpr ho)]
    exact step_of_decode_error hport (decode_of_opcodeOf_none ho)
  | some o =>
    have hop : opField w = opcodeBits o := opField_of_opcodeOf ho
    have hres : HasReservedBits op w.toNat ↔ zeroFieldClear (formatOf o) w = false := hasReservedBits_iff hop
    rw [if_neg (by simp [hnone, ho])]
    cases hz : zeroFieldClear (formatOf o) w with
    | false =>
      rw [if_pos (hres.mpr hz)]
      exact step_of_decode_error hport (decode_of_zeroField_set ho hz)
    | true =>
      have hdec : decode w = operandsOf o w := decode_of_zeroField_clear ho hz
      rw [if_neg (mt hres.mp (by simp [hz]))]
      split_ifs with hmode
      · obtain ⟨rfl, hsel⟩ := (reservedMode_iff hop).mp hmode
        exact step_of_decode_error hport (hdec.trans (if_pos hsel))
      · obtain ⟨i, hi⟩ := exists_operandsOf (mt (reservedMode_iff hop).mpr hmode)
        exact ⟨i, hdec.trans hi, step_completes hport (hdec.trans hi)⟩

/-! ### The worked words (R84) -/

/-- Settles O3: each word decoded in turn. -/
theorem workedWordsDecode : Obligations.WorkedWordsDecode := by
  unfold Obligations.WorkedWordsDecode
  decide

end Sys2Proof.Machine

/-! The clock's statements: NOW, what a tick adds, and the clock over many ticks. -/

namespace Sys2Proof.Machine

/-! ### NOW (R93) -/

theorem exec_now_eq (s : State) : exec .now s = .next ((s.setIe true).answer (some (.millis s.ms))) := rfl

theorem State.setIe_self {s : State} {b : Bool} (h : s.ie = b) : s.setIe b = s := by
  rw [← h]
  rfl

/-- Settles O9: the window closes with `IE = 1`, where it stood before. -/
theorem nowReadsTheClock : Obligations.NowReadsTheClock := by
  refine ⟨rfl, fun s => ⟨exec_now_eq s, fun hie => ?_⟩⟩
  rw [exec_now_eq, State.setIe_self hie]
  rfl

/-! ### The clock, some microsecond-units on (R90, R94) -/

/-- The clock `d` microsecond-units on: whole milliseconds into `MS` modulo `2^W`, the rest into `FRACT` (R90). -/
def State.advance (s : State) (d : Nat) : State :=
  s.setClock ((s.ms + (s.fract + d) / 1000) % 2 ^ s.cfg.w) ((s.fract + d) % 1000)

@[simp] theorem State.advance_cfg (s : State) (d : Nat) : (s.advance d).cfg = s.cfg := rfl

theorem State.advance_ms_lt (s : State) (d : Nat) : (s.advance d).ms < 2 ^ s.cfg.w := Nat.mod_lt _ (Nat.two_pow_pos _)

theorem State.advance_fract_le (s : State) (d : Nat) : (s.advance d).fract ≤ 999 :=
  Nat.le_of_lt_succ (Nat.mod_lt _ (by decide))

theorem State.advance_zero {s : State} (hms : s.ms < 2 ^ s.cfg.w) (hfract : s.fract ≤ 999) : s.advance 0 = s := by
  have hlt : s.fract < 1000 := Nat.lt_succ_of_le hfract
  rw [State.advance, Nat.add_zero, Nat.div_eq_of_lt hlt, Nat.add_zero, Nat.mod_eq_of_lt hms, Nat.mod_eq_of_lt hlt]
  rfl

/-- No drift: the remainder keeps every unit, so two advances are one by their sum (R94). -/
theorem State.advance_advance (s : State) (d e : Nat) : (s.advance d).advance e = s.advance (d + e) := by
  have hcarry : (s.fract + d) / 1000 + ((s.fract + d) % 1000 + e) / 1000 = (s.fract + (d + e)) / 1000 := by omega
  have hms : ((s.ms + (s.fract + d) / 1000) % 2 ^ s.cfg.w + ((s.fract + d) % 1000 + e) / 1000) % 2 ^ s.cfg.w =
      (s.ms + (s.fract + (d + e)) / 1000) % 2 ^ s.cfg.w := by rw [Nat.mod_add_mod, Nat.add_assoc, hcarry]
  have hfract : ((s.fract + d) % 1000 + e) % 1000 = (s.fract + (d + e)) % 1000 := by omega
  exact congrArg₂ s.setClock hms hfract

/-- A tick is an advance by one period (R90). -/
theorem State.tick_eq_advance {s : State} (h : s.ms < 2 ^ s.cfg.w) : s.tick = s.advance (tickPeriod s.cfg) := s.tick_eq h

/-! ### One turn of the timer (R90) -/

theorem State.tickHeld_of_none_pending {s : State} (h : s.tickPend = false) : s.tickHeld = false := by
  simp [State.tickHeld, h]

theorem step_of_timer {s : State} (hms : s.ms < 2 ^ s.cfg.w) (hie : s.ie = true) (hpend : s.tickPend = false)
    (hturn : s.nextTurn.1 = .timer) : step s = .next (s.nextTurn.2.advance (tickPeriod s.cfg)) := by
  have hms' : s.nextTurn.2.ms < 2 ^ s.nextTurn.2.cfg.w := by rwa [State.nextTurn_ms, State.nextTurn_cfg]
  calc step s
    _ = .next s.nextTurn.2.timerOverflow := step_of_turn (State.tickHeld_of_none_pending hpend) hturn
    _ = .next s.nextTurn.2.tick := by rw [State.timerOverflow_enabled (s.nextTurn_ie.trans hie)]
    _ = .next (s.nextTurn.2.advance (tickPeriod s.cfg)) := by rw [State.tick_eq_advance hms', State.nextTurn_cfg]

/-- Settles O10: the timer's turn advances the clock by the period in use. -/
theorem tickAddsThePeriod : Obligations.TickAddsThePeriod := by
  intro s hms hie hpend hturn
  refine ⟨tickPeriod s.cfg, isPeriod_tickPeriod s.cfg, ?_⟩
  rw [step_of_timer hms hie hpend hturn, State.advance, State.nextTurn_ms, State.nextTurn_fract, State.nextTurn_cfg]
  rfl

/-! ### Many turns of the timer (R94) -/

/-- `n` turns of the timer advance the clock by `n` periods. -/
theorem run_timer_turns (n : Nat) {s : State} (hsched : s.sched = List.replicate n .timer) (hms : s.ms < 2 ^ s.cfg.w)
    (hfract : s.fract ≤ 999) (hie : s.ie = true) (hpend : s.tickPend = false) :
    Host.Core.run Sys2Proof.core n s = .next ((s.setSched []).advance (n * tickPeriod s.cfg)) := by
  induction n generalizing s with
  | zero =>
    have hnil : s.setSched [] = s := congrArg s.setSched hsched.symm
    rw [Nat.zero_mul, hnil, State.advance_zero hms hfract]
    rfl
  | succ n ih =>
    have hnext : s.nextTurn = (.timer, s.setSched (List.replicate n .timer)) := by
      simp only [State.nextTurn, hsched, List.replicate_succ]
    have hstep : step s = .next ((s.setSched (List.replicate n .timer)).advance (tickPeriod s.cfg)) := by
      rw [step_of_timer hms hie hpend (by rw [hnext]), hnext]
    calc Host.Core.run Sys2Proof.core (n + 1) s
      _ = Host.Core.run Sys2Proof.core n ((s.setSched (List.replicate n .timer)).advance (tickPeriod s.cfg)) :=
        run_succ n hstep
      _ = .next (((s.setSched []).advance (tickPeriod s.cfg)).advance (n * tickPeriod s.cfg)) :=
        ih rfl (State.advance_ms_lt _ _) (State.advance_fract_le _ _) hie hpend
      _ = .next ((s.setSched []).advance ((n + 1) * tickPeriod s.cfg)) := by
        rw [State.advance_advance, Nat.succ_mul, Nat.add_comm]

/-- Settles O11: `n` periods on from a clock at zero. -/
theorem ticksAddUpWithoutDrift : Obligations.TicksAddUpWithoutDrift := by
  intro s hms hfract hie hpend
  refine ⟨tickPeriod s.cfg, isPeriod_tickPeriod s.cfg, fun n => ?_⟩
  have hlt : s.ms < 2 ^ s.cfg.w := by rw [hms]; exact Nat.two_pow_pos _
  have hle : s.fract ≤ 999 := by rw [hfract]; exact Nat.zero_le _
  refine (run_timer_turns n (s := s.setSched (List.replicate n .timer)) rfl hlt hle hie hpend).trans ?_
  simp [State.advance, State.setClock, State.setSched, hms, hfract]

/-! ### The clock over any events (R58, R91) -/

/-- An operation ends with the timer interrupt enabled, as it began: NOW and POLL restore it, no other touches it (R25). -/
theorem exec_keeps_enabled {i : Instr} {s t : State} (h : exec i s = .next t) (hie : s.ie = true) : t.ie = true := by
  by_cases hnow : i = .now
  · subst hnow
    rw [execNow_next h]
    rfl
  by_cases hpoll : i = .poll
  · subst hpoll
    obtain ⟨_, _, _, _, rfl⟩ := execPoll_cases h
    rfl
  obtain ⟨_, hframe, _⟩ := operationsWriteOnlyTheirRegisters i s t h
  exact (hframe hnow hpoll).trans hie

/-- Any event but a tick and a power cycle leaves the clock, the parameters and the enabled interrupt as they were (R39). -/
theorem perform_keeps_clock {e : Event} {s t : State} (hie : s.ie = true) (htick : e ≠ .tick) (hpower : e ≠ .powerCycle)
    (h : perform e s = .next t) : t.cfg = s.cfg ∧ t.ie = true ∧ ClockIs s.ms s.fract t := by
  cases e with
  | tick => exact absurd rfl htick
  | op i =>
    obtain ⟨⟨hcfg, hms, hfract, _⟩, _⟩ := operationsWriteOnlyTheirRegisters i s t h
    exact ⟨hcfg, exec_keeps_enabled h hie, hms, hfract⟩
  | levels p =>
    cases h
    exact ⟨rfl, hie, rfl, rfl⟩
  | powerCycle => exact absurd rfl hpower

theorem runEvents_cons_next {e : Event} {es : List Event} {s t : State} (h : runEvents (e :: es) s = .next t) :
    ∃ u, perform e s = .next u ∧ runEvents es u = .next t := by
  rw [runEvents] at h
  split at h
  · rename_i u hu
    exact ⟨u, hu, h⟩
  · cases h
  · cases h

/-- The clock of `t` stands where that of `s` does after `d` microsecond-units. -/
def ClockAdvanced (s : State) (d : Nat) (t : State) : Prop := ClockIs (s.advance d).ms (s.advance d).fract t

theorem clockAdvanced_zero {s : State} (hms : s.ms < 2 ^ s.cfg.w) (hfract : s.fract ≤ 999) : ClockAdvanced s 0 s := by
  rw [ClockAdvanced, State.advance_zero hms hfract]
  exact ⟨rfl, rfl⟩

theorem ClockAdvanced.of_advance {s t : State} {d e : Nat} (h : ClockAdvanced (s.advance d) e t) :
    ClockAdvanced s (d + e) t := by
  rwa [ClockAdvanced, State.advance_advance] at h

/-- An advance reads the parameters and the clock of its start, nothing else. -/
theorem ClockAdvanced.of_clockIs {s u t : State} {d : Nat} (hcfg : u.cfg = s.cfg) (hclock : ClockIs s.ms s.fract u)
    (h : ClockAdvanced u d t) : ClockAdvanced s d t := by
  obtain ⟨hms, hfract⟩ := hclock
  simpa only [ClockAdvanced, State.advance, State.setClock_ms, State.setClock_fract, hcfg, hms, hfract] using h

/-- Over any events but a power cycle the clock advances by one period for each tick (R91). -/
theorem runEvents_clockAdvanced {es : List Event} {s t : State} (hms : s.ms < 2 ^ s.cfg.w) (hfract : s.fract ≤ 999)
    (hie : s.ie = true) (hpower : .powerCycle ∉ es) (h : runEvents es s = .next t) :
    ClockAdvanced s (es.count .tick * tickPeriod s.cfg) t := by
  induction es generalizing s with
  | nil =>
    cases h
    rw [List.count_nil, Nat.zero_mul]
    exact clockAdvanced_zero hms hfract
  | cons e es ih =>
    have hes : .powerCycle ∉ es := List.not_mem_of_not_mem_cons hpower
    obtain ⟨u, hu, hrest⟩ := runEvents_cons_next h
    by_cases htick : e = .tick
    · subst htick
      have hadv : u = s.advance (tickPeriod s.cfg) := by
        cases hu
        rw [State.timerOverflow_enabled hie, State.tick_eq_advance hms]
      subst hadv
      rw [List.count_cons_self, Nat.succ_mul, Nat.add_comm]
      exact (ih (State.advance_ms_lt _ _) (State.advance_fract_le _ _) hie hes hrest).of_advance
    · obtain ⟨hcfg, hie', hsame⟩ := perform_keeps_clock hie htick (List.ne_of_not_mem_cons hpower).symm hu
      have hms' : u.ms < 2 ^ u.cfg.w := by rwa [hsame.1, hcfg]
      have hfract' : u.fract ≤ 999 := hsame.2.trans_le hfract
      rw [List.count_cons_of_ne htick, ← hcfg]
      exact (ih hms' hfract' hie' hes hrest).of_clockIs hcfg hsame

/-- Settles O12: the clock has advanced by the period in use, once for each tick. -/
theorem clockMovesByTheTicksOnly : Obligations.ClockMovesByTheTicksOnly := by
  intro s t es hms hfract hie hpower h
  obtain ⟨hms', hfract'⟩ := runEvents_clockAdvanced hms hfract hie hpower h
  exact ⟨tickPeriod s.cfg, isPeriod_tickPeriod s.cfg, hms', hfract'⟩

end Sys2Proof.Machine

/-! The input's statements: what POLL answers, an edge reported once, and the debounced state's one writer. -/

namespace Sys2Proof.Machine

/-! ### What a POLL does, sampling or not (R100, R101) -/

/-- A pin read takes the levels laid down, or some levels where none are, and at most moves the count of draws on (R105). -/
theorem State.pinRead_eq (s : State) :
    ∃ p n, (∀ l, s.pins = some l → p = l) ∧ s.pinRead = (p, { s with draws := n }) := by
  obtain ⟨p, hp, hread⟩ | ⟨hp, hread⟩ := s.pinRead_cases
  · exact ⟨p, s.draws, fun l hl => Option.some.inj (hp.symm.trans hl), hread⟩
  · exact ⟨Config.pinLevels s.draws, s.draws + 1, fun l hl => by simp [hp] at hl, hread⟩

/-- A state against itself shows no edge (R29). -/
theorem pollWord_self (cur : Buttons) : pollWord cur cur = 0b00#2 ++ 0b00#2 ++ cur := by
  have hreleased : releasedSet cur cur = 0b00#2 := by simp [releasedSet, BitVec.and_comm]
  have hpressed : pressedSet cur cur = 0b00#2 := by simp [pressedSet]
  rw [pollWord, hreleased, hpressed]

/-- Settles O15: a qualifying call takes one pin read, any other call answers the word of a state against itself. -/
theorem pollSamplesOrReuses : Obligations.PollSamplesOrReuses := by
  refine ⟨rfl, fun s => ⟨fun hq => ?_, fun hq => ?_⟩⟩
  · obtain ⟨p, n, hlevels, hread⟩ := s.pinRead_eq
    refine ⟨p, n, hlevels, (execPoll_of_qualifies (s.qualifies_iff.mpr hq)).trans ?_⟩
    rw [hread]
    rfl
  · have hq' : s.qualifies s.ms = false := Bool.eq_false_iff.mpr (mt s.qualifies_iff.mp hq)
    refine (execPoll_of_not_qualifies hq').trans ?_
    rw [pollWord_self]
    rfl

/-! ### An edge is reported once (R103 (b)) -/

/-- What a POLL answers is the word of the state it leaves against the state it found (R29, R100). -/
theorem exec_poll_answer {s t : State} {r : BitVec 6} (h : exec .poll s = .next t) (hr : t.result = some (.buttons r)) :
    r = pollWord t.btnCur s.btnCur := by
  obtain ⟨cur, stamp, n, _, rfl⟩ := execPoll_cases h
  cases hr
  rfl

@[simp] theorem State.timerOverflow_btnCur (s : State) : s.timerOverflow.btnCur = s.btnCur := by
  unfold State.timerOverflow
  split <;> rfl

/-- Of the operations only POLL writes the button registers (R20), so an event that is neither a POLL nor a power cycle keeps
the debounced state. -/
theorem perform_keeps_btnCur {e : Event} {s t : State} (he : e.keepsButtons = true) (h : perform e s = .next t) :
    t.btnCur = s.btnCur := by
  cases e with
  | tick =>
    cases h
    exact s.timerOverflow_btnCur
  | op i =>
    have hi : i ≠ .poll := by
      rintro rfl
      cases he
    obtain ⟨_, _, hbuttons, _⟩ := operationsWriteOnlyTheirRegisters i s t h
    exact (hbuttons hi).1
  | levels p =>
    cases h
    rfl
  | powerCycle => cases he

theorem runEvents_keeps_btnCur {es : List Event} {s t : State} (hes : ∀ e ∈ es, e.keepsButtons = true)
    (h : runEvents es s = .next t) : t.btnCur = s.btnCur := by
  induction es generalizing s with
  | nil =>
    cases h
    rfl
  | cons e es ih =>
    obtain ⟨he, hrest⟩ := List.forall_mem_cons.mp hes
    obtain ⟨u, hu, hrun⟩ := runEvents_cons_next h
    exact (ih hrest hrun).trans (perform_keeps_btnCur he hu)

/-- An edge into `cur` does not come again out of it: a newly pressed button is pressed in `cur`, so `next` cannot press it, and
likewise for a released one. -/
theorem pollWord_edge_not_repeated {prev cur next : Buttons} {k : Nat} (h2 : 2 ≤ k) (h6 : k < 6)
    (h : (pollWord cur prev).getLsbD k = true) : (pollWord next cur).getLsbD k = false := by
  obtain ⟨b, hb, rfl | rfl⟩ : ∃ b, b < 2 ∧ (k = 2 + b ∨ k = 4 + b) := ⟨k % 2, by omega, by omega⟩
  · obtain ⟨_, hpressed, _⟩ := getLsbD_pollWord cur prev hb
    obtain ⟨_, hpressed', _⟩ := getLsbD_pollWord next cur hb
    rw [hpressed, Bool.and_eq_true] at h
    simp [hpressed', h.1]
  · obtain ⟨_, _, hreleased⟩ := getLsbD_pollWord cur prev hb
    obtain ⟨_, _, hreleased'⟩ := getLsbD_pollWord next cur hb
    rw [hreleased, Bool.and_eq_true, Bool.not_eq_true'] at h
    simp [hreleased', h.1]

/-- Settles O17: the second POLL compares against the very state the first one left. -/
theorem edgeIsReportedOnce : Obligations.EdgeIsReportedOnce := by
  intro s t u v es r1 r2 k hs hr1 hes hrun hu hr2 h2 h6 hedge
  rw [exec_poll_answer hs hr1] at hedge
  rw [exec_poll_answer hu hr2, runEvents_keeps_btnCur hes hrun]
  exact pollWord_edge_not_repeated h2 h6 hedge

/-! ### The debounced state's one writer (R101, R103 (a)) -/

/-- From `s` to `t` the debounced state was kept, or taken by a qualifying sample, which `BTN_T` records. -/
def KeptOrSampled (s t : State) : Prop :=
  t.btnCur = s.btnCur ∨ (Qualifies s ∧ t.btnT = s.ms ∧ t.btnPrev = s.btnCur)

theorem exec_keptOrSampled {i : Instr} {s t : State} (h : exec i s = .next t) : KeptOrSampled s t := by
  by_cases hi : i = .poll
  · subst hi
    obtain ⟨_, hpoll⟩ := pollSamplesOrReuses
    by_cases hq : Qualifies s
    · obtain ⟨p, n, _, hexec⟩ := (hpoll s).1 hq
      cases hexec.symm.trans h
      exact .inr ⟨hq, rfl, rfl⟩
    · cases ((hpoll s).2 hq).symm.trans h
      exact .inl rfl
  · obtain ⟨_, _, hbuttons, _⟩ := operationsWriteOnlyTheirRegisters i s t h
    exact .inl (hbuttons hi).1

theorem listTurn_keptOrSampled {s t : State} (h : listTurn s = .next t) : KeptOrSampled s t := by
  obtain ⟨_, rest, i, _, _, hx⟩ := listTurn_next h
  exact (exec_keptOrSampled hx : KeptOrSampled (s.setCmds rest) t)

/-- A turn of the reference host performs at most one operation, and writes its own variables before and after it (R145). -/
theorem mainTurn_one_operation {s t : State} (h : mainTurn s = .next t) :
    ∃ m, t = s.setMain m ∨ ∃ i u m', exec i (s.setMain m) = .next u ∧ t = u.setMain m' := by
  obtain ⟨_, u, hx, rfl⟩ | ⟨a, rest, _, ha⟩ := mainTurn_next h
  · exact ⟨s.main, .inr ⟨.poll, u, _, hx, rfl⟩⟩
  · refine ⟨{ s.main with todo := rest }, ?_⟩
    obtain ⟨_, rfl⟩ | ⟨i, u, _, hx, rfl⟩ := hostAct_next ha
    · exact .inl rfl
    · exact .inr ⟨i, u, _, hx, rfl⟩

theorem mainTurn_keptOrSampled {s t : State} (h : mainTurn s = .next t) : KeptOrSampled s t := by
  obtain ⟨m, rfl | ⟨i, u, m', hx, rfl⟩⟩ := mainTurn_one_operation h
  · exact .inl rfl
  · exact (exec_keptOrSampled hx : KeptOrSampled (s.setMain m) u)

/-- The choice of turn touches nothing the qualifying test or the sample reads. -/
theorem keptOrSampled_nextTurn_iff (s t : State) : KeptOrSampled s.nextTurn.2 t ↔ KeptOrSampled s t := by
  simp only [KeptOrSampled, Qualifies, State.nextTurn_cfg, State.nextTurn_ms, State.nextTurn_btnT, State.nextTurn_btnCur]

/-- Settles O18: the timer and the environment keep the debounced state, and each kind of host takes it only by a qualifying
sample. -/
theorem buttonsChangeOnlyInQualifyingSamples : Obligations.ButtonsChangeOnlyInQualifyingSamples := by
  intro s t h hne
  have sampled (ht : KeptOrSampled s.nextTurn.2 t) : Qualifies s ∧ t.btnT = s.ms ∧ t.btnPrev = s.btnCur :=
    ((keptOrSampled_nextTurn_iff s t).mp ht).resolve_left hne
  obtain ⟨_, rfl⟩ | ⟨_, ⟨_, rfl⟩ | ⟨p, _, rfl⟩ | ⟨hturn, _⟩ | ⟨hturn, _, hl⟩ | ⟨hturn, _, hm⟩⟩ := step_cases h
  · exact absurd rfl hne
  · exact absurd (s.nextTurn.2.timerOverflow_btnCur.trans s.nextTurn_btnCur) hne
  · exact absurd s.nextTurn_btnCur hne
  · exact .inl hturn
  · exact .inr ⟨hturn, sampled (listTurn_keptOrSampled hl)⟩
  · exact .inr ⟨hturn, sampled (mainTurn_keptOrSampled hm)⟩

end Sys2Proof.Machine

/-! The display's statements: the frame a REFRESH leaves, its one enable line, its digits modulo 600, and three REFRESH calls. -/

namespace Sys2Proof.Machine

/-! ### REFRESH, for every operand (R110) -/

theorem exec_refresh_eq (time : Seconds) (dots : BitVec 8) (mask : BitVec 3) (s : State) :
    exec (.refresh time dots mask) s = .next ((s.setFrame (segLevelsOf s.cfg (displayDigit time s.cursor))
      (digitEnable s.cursor mask) (dotLevel s.cfg dots) (nextCursor s.cursor)).answer none) := rfl

theorem displayDigit_val (time : Seconds) (i : Fin 3) :
    (displayDigit time i).val =
      if i = 0 then time.toNat / 60 % 10 else if i = 1 then time.toNat % 60 / 10 else time.toNat % 60 % 10 := by
  match i with
  | 0 => rfl
  | 1 => rfl
  | 2 => rfl

/-- Settles O19: the digit and the cursor are the model's, and the frame set is the record written out. -/
theorem refreshRendersOneDigit : Obligations.RefreshRendersOneDigit := fun time dots mask s =>
  ⟨rfl, displayDigit time s.cursor, nextCursor s.cursor, displayDigit_val time s.cursor, rfl, exec_refresh_eq time dots mask s⟩

/-! ### The enable lines (R113) -/

theorem getLsbD_oneHot (i k : Fin 3) : (0b001#3 <<< i.val).getLsbD k.val = true ↔ k = i := by
  revert i k
  decide

theorem getLsbD_digitEnable (i k : Fin 3) (mask : BitVec 3) :
    (digitEnable i mask).getLsbD k.val = true ↔ k = i ∧ mask.getLsbD k.val = true := by
  rw [digitEnable, BitVec.getLsbD_and, Bool.and_eq_true, getLsbD_oneHot]

/-- Settles O20: the enable lines after the step are `digitEnable` of the cursor before it. -/
theorem refreshEnablesTheRenderedDigitOnly : Obligations.RefreshEnablesTheRenderedDigitOnly := by
  intro time dots mask s t h
  rw [execRefresh_next h]
  exact ⟨fun k => getLsbD_digitEnable s.cursor k mask, atMostOneDigit_digitEnable s.cursor mask⟩

/-! ### The digits, modulo 600 (R117) -/

/-- The three digits, read as minutes and seconds, are the time modulo ten minutes. -/
theorem mod_600_eq_displayDigits (time : Seconds) :
    time.toNat % 600 =
      60 * (displayDigit time 0).val + 10 * (displayDigit time 1).val + (displayDigit time 2).val := by
  simp only [displayDigit]
  omega

theorem displayDigit_congr {t1 t2 : Seconds} (h : t1.toNat % 600 = t2.toNat % 600) (i : Fin 3) :
    displayDigit t1 i = displayDigit t2 i := by
  have hmin : t1.toNat / 60 % 10 = t2.toNat / 60 % 10 := by omega
  have hsec : t1.toNat % 60 = t2.toNat % 60 := by omega
  ext
  rw [displayDigit_val, displayDigit_val, hmin, hsec]

theorem displayDigit_eq_iff (t1 t2 : Seconds) :
    (∀ i : Fin 3, displayDigit t1 i = displayDigit t2 i) ↔ t1.toNat % 600 = t2.toNat % 600 := by
  refine ⟨fun h => ?_, displayDigit_congr⟩
  rw [mod_600_eq_displayDigits t1, mod_600_eq_displayDigits t2, h 0, h 1, h 2]

/-- Settles O21: a time enters the step by its digits only, and the digits are the time modulo 600. -/
theorem displayAliasesModulo600 : Obligations.DisplayAliasesModulo600 := by
  refine ⟨fun time dots mask s => ⟨_, exec_refresh_eq time dots mask s⟩, fun time => displayDigit_val time 0,
    displayDigit_eq_iff, fun t1 t2 h dots mask s => ?_, displayDigit_congr (by decide)⟩
  rw [exec_refresh_eq, exec_refresh_eq, displayDigit_congr h]

/-! ### The cursor's round (R112, R118) -/

@[simp] theorem nextCursor_val (i : Fin 3) : (nextCursor i).val = (i.val + 1) % 3 := rfl

theorem nextCursor_nextCursor_val (i : Fin 3) : (nextCursor (nextCursor i)).val = (i.val + 2) % 3 := by
  simp only [nextCursor_val]
  omega

theorem nextCursor_nextCursor_nextCursor (i : Fin 3) : nextCursor (nextCursor (nextCursor i)) = i := by
  ext
  simp only [nextCursor_val]
  omega

theorem digitEnable_full (i : Fin 3) : digitEnable i 0b111#3 = 1#3 <<< i.val := BitVec.and_allOnes

/-- Settles O22: each call enables the digit its cursor names and moves the cursor on by one, modulo 3. -/
theorem threeRefreshesGoRound : Obligations.ThreeRefreshesGoRound := by
  intro time dots s
  refine ⟨_, _, _, exec_refresh_eq .., exec_refresh_eq .., exec_refresh_eq .., digitEnable_full s.cursor,
    digitEnable_full (nextCursor s.cursor), ?_, nextCursor_nextCursor_nextCursor s.cursor⟩
  rw [← nextCursor_nextCursor_val]
  exact digitEnable_full (nextCursor (nextCursor s.cursor))

end Sys2Proof.Machine

/-! The configuration store's statements: what LOAD makes of the stored value, what SAVE stores, and a saved value loaded back. -/

namespace Sys2Proof.Machine

/-! ### The stored value (R54) -/

/-- The 16-bit value in the store, its two bytes taken in the platform's byte order (R54). -/
def State.storedValue (s : State) : Seconds :=
  assemble s.cfg.nvEndian (s.nv.read s.cfg.nvAddr) (s.nv.read (s.cfg.nvAddr + 1))

/-- Two bytes assembled are the number they spell, in either byte order. -/
theorem assemble_toNat (e : Endian) (b0 b1 : Byte) : (assemble e b0 b1).toNat = spelled e b0 b1 := by
  have append_toNat (hi lo : Byte) : (hi ++ lo).toNat = 256 * hi.toNat + lo.toNat := by
    rw [BitVec.toNat_append, ← Nat.shiftLeft_add_eq_or_of_lt lo.isLt, Nat.shiftLeft_eq, Nat.mul_comm]
  cases e with
  | little => exact (append_toNat b1 b0).trans (Nat.add_comm _ _)
  | big => exact append_toNat b0 b1

theorem State.storedValue_toNat (s : State) :
    s.storedValue.toNat = spelled s.cfg.nvEndian (s.nv.read s.cfg.nvAddr) (s.nv.read (s.cfg.nvAddr + 1)) :=
  assemble_toNat ..

/-! ### LOAD (R125, R126) -/

theorem normalise_toNat (c : Config) (raw : Seconds) :
    (normalise c raw).toNat = if raw.toNat ≤ 599 then raw.toNat else c.defaultDuration.toNat :=
  apply_ite BitVec.toNat ..

theorem normalise_le {c : Config} (h : c.defaultDuration.toNat ≤ 599) (raw : Seconds) : (normalise c raw).toNat ≤ 599 := by
  rw [normalise_toNat]
  split
  · assumption
  · exact h

/-- Settles O23: LOAD answers the stored value, normalised. -/
theorem loadNormalisesTheStoredValue : Obligations.LoadNormalisesTheStoredValue := by
  refine ⟨rfl, fun s hlt => ⟨normalise s.cfg s.storedValue, ?_, fun hdef => normalise_le hdef _, exec_load_of_lt hlt⟩⟩
  rw [← s.storedValue_toNat]
  exact normalise_toNat s.cfg s.storedValue

/-! ### SAVE (R127) -/

/-- After a SAVE the store holds its operand, whatever it is. -/
theorem exec_save_storedValue {s t : State} {dur : Seconds} (h : exec (.save dur) s = .next t) : t.storedValue = dur := by
  obtain ⟨hlt, _⟩ := exec_save_next h
  rw [exec_save_of_lt dur hlt] at h
  cases h
  have hne : s.cfg.nvAddr ≠ s.cfg.nvAddr + 1 := s.cfg.nvAddr.lt_succ_self.ne
  simp only [State.storedValue, State.answer_cfg, State.answer_nv, State.setNv_cfg, State.setNv_nv,
    Memory.read_write_same, Memory.read_write_ne _ _ hne, assemble_split]

/-- Settles O24: the new store holds the operand, and SAVE leaves every byte but its two. -/
theorem saveStoresBothBytes : Obligations.SaveStoresBothBytes := by
  refine ⟨fun _ => rfl, fun s dur hlt => ?_⟩
  have h := exec_save_of_lt dur hlt
  refine ⟨_, h, (State.storedValue_toNat _).symm.trans (congrArg BitVec.toNat (exec_save_storedValue h)), fun a h0 h1 => ?_⟩
  have beside : a < s.cfg.nvAddr ∨ s.cfg.nvAddr + 1 < a := by omega
  exact (exec_save_read_other h beside :)

/-! ### A saved value loaded back (R129) -/

/-- An event that saves nothing, a power cycle among them (R205), keeps the parameters and the store. -/
theorem perform_keeps_store {e : Event} {s t : State} (he : e.keepsStore = true) (h : perform e s = .next t) :
    t.cfg = s.cfg ∧ t.nv = s.nv := by
  cases e with
  | tick =>
    cases h
    exact ⟨s.timerOverflow_cfg, s.timerOverflow_nv⟩
  | op i =>
    refine ⟨(exec_keeps h).1, ?_⟩
    obtain ⟨dur, rfl⟩ | hnv := exec_save_or_keeps_nv h
    · cases he
    · exact hnv
  | levels p =>
    cases h
    exact ⟨rfl, rfl⟩
  | powerCycle =>
    cases h
    exact ⟨rfl, rfl⟩

theorem runEvents_keeps_store {es : List Event} {s t : State} (hes : ∀ e ∈ es, e.keepsStore = true)
    (h : runEvents es s = .next t) : t.cfg = s.cfg ∧ t.nv = s.nv := by
  induction es generalizing s with
  | nil =>
    cases h
    exact ⟨rfl, rfl⟩
  | cons e es ih =>
    obtain ⟨he, hrest⟩ := List.forall_mem_cons.mp hes
    obtain ⟨u, hu, hrun⟩ := runEvents_cons_next h
    obtain ⟨hcfg, hnv⟩ := perform_keeps_store he hu
    obtain ⟨hcfg', hnv'⟩ := ih hrest hrun
    exact ⟨hcfg'.trans hcfg, hnv'.trans hnv⟩

/-- Settles O25: the events leave the stored value at the operand of the SAVE, and LOAD answers it normalised. -/
theorem savedDurationIsLoadedBack : Obligations.SavedDurationIsLoadedBack := by
  intro s t u dur es hs hes hrun
  obtain ⟨hlt, _⟩ := exec_save_next hs
  obtain ⟨hcfg, hnv⟩ := runEvents_keeps_store hes hrun
  have hparams : u.cfg = s.cfg := hcfg.trans (exec_keeps hs).1
  have hstored : u.storedValue = dur := by
    rw [← exec_save_storedValue hs, State.storedValue, State.storedValue, hcfg, hnv]
  have hload : exec .load u = .next (u.answer (some (.duration (normalise u.cfg u.storedValue)))) :=
    exec_load_of_lt (by rwa [hparams])
  rw [hstored, hparams] at hload
  exact ⟨_, hload, rfl⟩

end Sys2Proof.Machine

/-! The mode indicator's statements: the lines SHOW and CHAN drive, who else moves the lamps, and lamp safety of the whole box. -/

namespace Sys2Proof.Machine

/-! ### SHOW (R135) -/

theorem exec_showMode_of_some {sel : BitVec 2} {m : Mode} (s : State) (h : modeOfSel sel = some m) :
    exec (.showMode sel) s = .next ((s.setLed (modePattern m)).answer none) := by
  simp only [exec, execShow, h]

theorem exec_showMode_of_none {sel : BitVec 2} (s : State) (h : modeOfSel sel = none) :
    exec (.showMode sel) s = .refused .reservedMode := by
  simp only [exec, execShow, h]

/-- Settles O29: the operand's number is the operand, and it names the Mode whose lines are lit, or none. -/
theorem showDrivesTheModeLines : Obligations.ShowDrivesTheModeLines := by
  intro sel s
  have operand {n : BitVec 2} (h : sel.toNat = n.toNat) : sel = n := BitVec.eq_of_toNat_eq h
  refine ⟨rfl, fun h => ?_, fun h => ?_, fun h => ?_, fun h => ?_⟩
  · rw [operand (n := 0#2) h]
    exact exec_showMode_of_some s (m := .top) rfl
  · rw [operand (n := 1#2) h]
    exact exec_showMode_of_some s (m := .bottom) rfl
  · rw [operand (n := 2#2) h]
    exact exec_showMode_of_some s (m := .both) rfl
  · rw [operand (n := 3#2) h]
    exact exec_showMode_of_none s rfl

/-! ### The channel lines' one writer (R137) -/

theorem exec_chan_eq (sel : BitVec 2) (s : State) : exec (.chan sel) s = .next ((s.setUv sel).answer none) := rfl

/-- Of the operations only CHAN writes the lines (R20). -/
theorem exec_chan_or_keeps_uv {i : Instr} {s t : State} (h : exec i s = .next t) :
    (∃ sel, i = .chan sel) ∨ t.uv = s.uv := by
  obtain ⟨_, _, _, _, _, huv⟩ := operationsWriteOnlyTheirRegisters i s t h
  by_cases hi : ∃ sel, i = .chan sel
  · exact .inl hi
  · exact .inr (huv (not_exists.mp hi))

/-- The two entries of the reference host's list that issue a CHAN turn the lamps on and off (R153, R165, R168). -/
theorem eq_lamps_of_operationOf_chan {a : HostAct} {m : MainCtl} {sel : BitVec 2} (h : operationOf a m = some (.chan sel)) :
    a = .lampsOn ∨ a = .lampsOff := by
  cases a with
  | lampsOn => exact .inl rfl
  | lampsOff => exact .inr rfl
  | _ => cases h

@[simp] theorem State.timerOverflow_uv (s : State) : s.timerOverflow.uv = s.uv := by
  unfold State.timerOverflow
  split <;> rfl

/-- A turn of the command list writes the lines only where its next word spells a CHAN (R70). -/
theorem listTurn_chan_or_keeps_uv {s t : State} (h : listTurn s = .next t) :
    (∃ sel w rest, s.cmds = w :: rest ∧ decode w = .ok (.chan sel)) ∨ t.uv = s.uv := by
  obtain ⟨w, rest, i, hcmds, hi, hx⟩ := listTurn_next h
  obtain ⟨sel, rfl⟩ | huv := exec_chan_or_keeps_uv hx
  · exact .inl ⟨sel, w, rest, hcmds, hi⟩
  · exact .inr huv

/-- A turn of the reference host writes the lines only where its next entry turns the lamps on or off. -/
theorem mainTurn_lamps_or_keeps_uv {s t : State} (h : mainTurn s = .next t) :
    (∃ a rest, s.main.todo = a :: rest ∧ (a = .lampsOn ∨ a = .lampsOff)) ∨ t.uv = s.uv := by
  obtain ⟨_, u, hx, rfl⟩ | ⟨a, rest, htodo, ha⟩ := mainTurn_next h
  · obtain ⟨_, hi⟩ | huv := exec_chan_or_keeps_uv hx
    · cases hi
    · exact .inr huv
  · obtain ⟨_, rfl⟩ | ⟨i, u, hop, hx, rfl⟩ := hostAct_next ha
    · exact .inr rfl
    · obtain ⟨sel, rfl⟩ | huv := exec_chan_or_keeps_uv hx
      · exact .inl ⟨a, rest, htodo, eq_lamps_of_operationOf_chan hop⟩
      · exact .inr huv

/-- Settles O30: the timer and the environment keep the lines, and each kind of host writes them only by its CHAN. -/
theorem chanDrivesBothLines : Obligations.ChanDrivesBothLines := by
  refine ⟨fun sel s => ⟨rfl, exec_chan_eq sel s⟩, fun s t h moved => ?_⟩
  obtain ⟨_, rfl⟩ | ⟨hheld, ⟨_, rfl⟩ | ⟨p, _, rfl⟩ | ⟨hturn, _⟩ | ⟨hturn, hd, hl⟩ | ⟨hturn, hd, hm⟩⟩ := step_cases h
  · exact absurd rfl moved
  · exact absurd (s.nextTurn.2.timerOverflow_uv.trans s.nextTurn_uv) moved
  · exact absurd s.nextTurn_uv moved
  · exact .inl hturn
  · rw [State.nextTurn_driver] at hd
    obtain ⟨sel, w, rest, hcmds, hi⟩ | huv := listTurn_chan_or_keeps_uv hl
    · exact .inr (.inl ⟨sel, hheld, hturn, hd, w, rest, s.nextTurn_cmds ▸ hcmds, hi⟩)
    · exact absurd (huv.trans s.nextTurn_uv) moved
  · rw [State.nextTurn_driver] at hd
    obtain ⟨a, rest, htodo, ha⟩ | huv := mainTurn_lamps_or_keeps_uv hm
    · have does : s.hostDoes a := ⟨hheld, hturn, hd, rest, s.nextTurn_main ▸ htodo⟩
      obtain rfl | rfl := ha
      · exact .inr (.inr (.inl does))
      · exact .inr (.inr (.inr does))
    · exact absurd (huv.trans s.nextTurn_uv) moved

/-! ### The lamps before the first CHAN (R140) -/

/-- Low lines stay low under any event but a CHAN with a non-zero operand. -/
theorem perform_keeps_lamps_off {e : Event} {s t : State} (he : e.keepsLampsOff = true) (hs : s.uv = 0b00#2)
    (h : perform e s = .next t) : t.uv = 0b00#2 := by
  cases e with
  | tick =>
    cases h
    exact s.timerOverflow_uv.trans hs
  | op i =>
    obtain ⟨sel, rfl⟩ | huv := exec_chan_or_keeps_uv h
    · rw [execChan_next h]
      exact beq_iff_eq.mp he
    · exact huv.trans hs
  | levels p =>
    cases h
    exact hs
  | powerCycle =>
    cases h
    rfl

/-- Settles O31: by induction on the events. -/
theorem lampsStayOffUntilChan : Obligations.LampsStayOffUntilChan := by
  refine ⟨rfl, fun s t es hs hes h => ?_⟩
  induction es generalizing s with
  | nil =>
    cases h
    exact hs
  | cons e es ih =>
    obtain ⟨he, hrest⟩ := List.forall_mem_cons.mp hes
    obtain ⟨u, hu, hrun⟩ := runEvents_cons_next h
    exact ih u (perform_keeps_lamps_off he hs hu) hrest hrun

/-! ### The host's list, read with the lamps on or off (R171, R216) -/

/-- Whether the lamps are on after an entry of the host's list is performed. -/
def HostAct.lampsAfter : HostAct → Bool → Bool
  | .lampsOn, _ => true
  | .lampsOff, _ => false
  | _, on => on

theorem lampsGuarded_tail {a : HostAct} {on : Bool} {rest : List HostAct} (h : lampsGuarded on (a :: rest) = true) :
    lampsGuarded (a.lampsAfter on) rest = true := by
  cases a with
  | drain into => exact (Bool.and_eq_true_iff.mp h).2
  | start => exact (Bool.and_eq_true_iff.mp h).2
  | _ => exact h

theorem lamps_off_of_guarded_drain {on : Bool} {into : Option Ctl} {rest : List HostAct}
    (h : lampsGuarded on (.drain into :: rest) = true) : on = false := by
  cases on with
  | false => rfl
  | true => cases h

theorem lamps_off_of_guarded_start {on : Bool} {rest : List HostAct} (h : lampsGuarded on (.start :: rest) = true) :
    on = false := by
  cases on with
  | false => rfl
  | true => cases h

/-- A list safe to go through with the lamps on is safe with them off: no entry asks for lit lamps. -/
theorem lampsGuarded_off {on : Bool} {l : List HostAct} (h : lampsGuarded on l = true) : lampsGuarded false l = true := by
  induction l generalizing on with
  | nil => rfl
  | cons a rest ih =>
    have hrest := lampsGuarded_tail h
    cases a with
    | lampsOn => exact hrest
    | lampsOff => exact hrest
    | _ => exact ih hrest

@[simp] theorem lampsGuarded_closing_append (on : Bool) (time : Seconds) (dots : BitVec 8) (mask : BitVec 3)
    (rest : List HostAct) : lampsGuarded on (closing time dots mask ++ rest) = lampsGuarded on rest := rfl

/-! ### What the host's logic puts on its list -/

theorem MainCtl.idleLogic_guarded (m : MainCtl) (c : Config) (released : Buttons) :
    lampsGuarded false (m.idleLogic c released).todo = true := by
  simp only [MainCtl.idleLogic]
  repeat' split
  all_goals rfl

theorem MainCtl.setupMinLogic_guarded (m : MainCtl) (c : Config) (pressed : Buttons) :
    lampsGuarded false (m.setupMinLogic c pressed).todo = true := by
  simp only [MainCtl.setupMinLogic]
  split <;> rfl

theorem MainCtl.setupSecLogic_guarded (m : MainCtl) (c : Config) (pressed : Buttons) :
    lampsGuarded false (m.setupSecLogic c pressed).todo = true := by
  simp only [MainCtl.setupSecLogic]
  split <;> rfl

/-- An iteration begun with the lamps off plans no drain behind a CHAN that turns them on. -/
theorem MainCtl.afterPoll_guarded (m : MainCtl) (c : Config) (r : BitVec 6) :
    lampsGuarded false (m.afterPoll c r).todo = true := by
  simp only [MainCtl.afterPoll]
  split
  · exact MainCtl.idleLogic_guarded _ c _
  · exact MainCtl.setupMinLogic_guarded _ c _
  · exact MainCtl.setupSecLogic_guarded _ c _
  · rfl

theorem MainCtl.afterPoll_exposure {m : MainCtl} (c : Config) (r : BitVec 6) (h : m.ctl = .exposure) :
    m.afterPoll c r = { m.countHolds (currentOf r) with todo := [.countdown (currentOf r)] } := by
  simp only [MainCtl.afterPoll, MainCtl.countHolds, h]

/-- A drain that ends leaves the list ahead, any other puts a pause and itself before it (R151). -/
theorem MainCtl.afterDrain_todo (m : MainCtl) (into : Option Ctl) (r : BitVec 6) :
    (m.afterDrain into r).todo = m.todo ∨ (m.afterDrain into r).todo = .delay :: .drain into :: m.todo := by
  simp only [MainCtl.afterDrain]
  split
  · cases into <;> exact .inl rfl
  · exact .inr rfl

/-- The drain of an Exposure iteration stands behind its `CHAN 0b00` (R171). -/
theorem MainCtl.exposureLogic_guarded (m : MainCtl) (c : Config) (now : Nat) (cur : Buttons) {on : Bool}
    {rest : List HostAct} (h : lampsGuarded on rest = true) :
    lampsGuarded on (m.exposureLogic c now cur ++ rest) = true := by
  have hoff : lampsGuarded false rest = true := lampsGuarded_off h
  by_cases hexit : m.exits c now cur = true
  · by_cases hzero : m.remaining c now = 0 <;> simp [MainCtl.exposureLogic, lampsGuarded, hexit, hzero, hoff]
  · by_cases hzero : m.remaining c now = 0
    · simp [MainCtl.exposureLogic, lampsGuarded, hexit, hzero, hoff]
    · simp [MainCtl.exposureLogic, hexit, hzero, h]

/-! ### Lamp safety of the box (R138, R140, R171, R216) -/

/-- What lamp safety asks of the host's variables while the lamps are on or off. -/
structure HostGuards (on : Bool) (m : MainCtl) : Prop where
  only_exposure : m.ctl ≠ .exposure → on = false
  guarded : lampsGuarded on m.todo = true

theorem lampsInv_iff (s : State) :
    LampsInv s ↔ s.driver = .mainController ∧ HostGuards (s.uv != 0b00#2) s.main := by
  constructor
  · rintro ⟨hdriver, hexp, hguard⟩
    exact ⟨hdriver, fun hctl => bne_eq_false_iff_eq.mpr (hexp hctl), hguard⟩
  · rintro ⟨hdriver, hexp, hguard⟩
    exact ⟨hdriver, fun hctl => bne_eq_false_iff_eq.mp (hexp hctl), hguard⟩

/-- With the lamps off, only the list is left to ask about. -/
theorem hostGuards_off {m : MainCtl} (h : lampsGuarded false m.todo = true) : HostGuards false m := ⟨fun _ => rfl, h⟩

/-- The lamps are on in Exposure only, whose iteration puts its countdown on the list and no drain. -/
theorem HostGuards.afterPoll {on : Bool} {m : MainCtl} (h : HostGuards on m) (c : Config) (r : BitVec 6) :
    HostGuards on (m.afterPoll c r) := by
  by_cases hctl : m.ctl = .exposure
  · rw [MainCtl.afterPoll_exposure c r hctl]
    exact ⟨absurd hctl, rfl⟩
  · cases h.only_exposure hctl
    exact hostGuards_off (m.afterPoll_guarded c r)

/-- What the host makes of an answer fits the lamps as the entry has left them. -/
theorem HostGuards.reactionTo {on : Bool} {m : MainCtl} {a : HostAct} {rest : List HostAct} (h : HostGuards on m)
    (htodo : m.todo = a :: rest) (c : Config) (r : Option Result) :
    HostGuards (a.lampsAfter on) (reactionTo a c r { m with todo := rest }) := by
  obtain ⟨hexp, hguard⟩ := h
  rw [htodo] at hguard
  have hrest := lampsGuarded_tail hguard
  cases a with
  | start =>
    cases lamps_off_of_guarded_start hguard
    exact hostGuards_off hrest
  | drain into =>
    cases lamps_off_of_guarded_drain hguard
    refine hostGuards_off ?_
    obtain h | h := MainCtl.afterDrain_todo { m with todo := rest } into (buttonsOf r)
    · exact (congrArg (lampsGuarded false) h).trans hrest
    · exact (congrArg (lampsGuarded false) h).trans hrest
  | lampsOn => exact ⟨absurd rfl, hrest⟩
  | lampsOff => exact hostGuards_off hrest
  | countdown cur => exact ⟨hexp, MainCtl.exposureLogic_guarded _ c _ cur hrest⟩
  | _ => exact ⟨hexp, hrest⟩

theorem exposeOp_eq (m : Mode) : exposeOp m = .chan (modePattern m) := by cases m <;> rfl

theorem modePattern_ne_zero (m : Mode) : modePattern m ≠ 0b00#2 := by cases m <;> decide

/-- An entry's operation leaves the lamps as `lampsAfter` says: an exposure pattern lights one at least (R138). -/
theorem exec_lampsAfter {a : HostAct} {m : MainCtl} {i : Instr} {s t : State} (hop : operationOf a m = some i)
    (h : exec i s = .next t) : (t.uv != 0b00#2) = a.lampsAfter (s.uv != 0b00#2) := by
  have kept (hi : ∀ sel, i ≠ .chan sel) : t.uv = s.uv :=
    (exec_chan_or_keeps_uv h).resolve_left (not_exists.mpr hi)
  cases a with
  | lampsOn =>
    cases hop
    rw [exposeOp_eq] at h
    rw [execChan_next h]
    exact bne_iff_ne.mpr (modePattern_ne_zero m.mode)
  | lampsOff =>
    cases hop
    rw [execChan_next h]
    rfl
  | delay => cases hop
  | _ =>
    cases hop
    rw [kept (by simp)]
    rfl

theorem LampsInv.nextTurn {s : State} (h : LampsInv s) : LampsInv s.nextTurn.2 := by
  obtain ⟨_, _, _, e⟩ | ⟨_, e⟩ := s.nextTurn_cases
  · rw [e]; exact { h with }
  · rw [e]; exact { h with }

theorem LampsInv.timerOverflow {s : State} (h : LampsInv s) : LampsInv s.timerOverflow := by
  unfold State.timerOverflow
  split
  · exact { h with }
  · exact { h with }

/-- A power cycle puts the lamps out and the host at its boot (R205). -/
theorem LampsInv.powerCycle {s : State} (h : LampsInv s) : LampsInv s.powerCycle := ⟨h.host, fun _ => rfl, rfl⟩

/-- An operation that leaves the host's variables fit for the lamps, once the host has reacted to it, keeps lamp safety. -/
theorem lampsInv_of_exec {i : Instr} {s t : State} {m : MainCtl} (h : exec i s = .next t)
    (hdriver : s.driver = .mainController) (hm : HostGuards (t.uv != 0b00#2) m) : LampsInv (t.setMain m) := by
  obtain ⟨⟨_, _, _, _, _, _, hkept, _⟩, _⟩ := operationsWriteOnlyTheirRegisters i s t h
  exact (lampsInv_iff _).mpr ⟨hkept.trans hdriver, hm⟩

/-- One entry of the host's list, taken off and performed. -/
theorem LampsInv.hostAct {s t : State} {a : HostAct} {rest : List HostAct} (h : LampsInv s) (htodo : s.main.todo = a :: rest)
    (ha : hostAct a (s.setMain { s.main with todo := rest }) = .next t) : LampsInv t := by
  obtain ⟨hdriver, hguards⟩ := (lampsInv_iff s).mp h
  obtain ⟨hop, rfl⟩ | ⟨i, u, hop, hx, rfl⟩ := hostAct_next ha
  · cases a with
    | delay => exact (lampsInv_iff _).mpr ⟨hdriver, hguards.reactionTo htodo s.cfg s.result⟩
    | _ => cases hop
  · refine lampsInv_of_exec hx hdriver ?_
    rw [exec_lampsAfter hop hx, (exec_keeps hx).2]
    exact hguards.reactionTo htodo u.cfg u.result

/-- One turn of the reference host: an iteration's POLL, or the next entry of its list. -/
theorem LampsInv.mainTurn {s t : State} (h : LampsInv s) (hm : mainTurn s = .next t) : LampsInv t := by
  obtain ⟨_, u, hx, rfl⟩ | ⟨a, rest, htodo, ha⟩ := mainTurn_next hm
  · obtain ⟨hdriver, hguards⟩ := (lampsInv_iff s).mp h
    have huv : u.uv = s.uv := (exec_chan_or_keeps_uv hx).resolve_left (by simp)
    refine lampsInv_of_exec hx hdriver ?_
    rw [huv, (exec_keeps hx).2]
    exact hguards.afterPoll u.cfg (buttonsOf u.result)
  · exact h.hostAct htodo ha

/-- Settles O41: the host at the port is the reference host, and each agent's move keeps lamp safety. -/
theorem stepKeepsTheLampsInvariant : Obligations.StepKeepsTheLampsInvariant := by
  intro s t hs h
  have hn : LampsInv s.nextTurn.2 := hs.nextTurn
  obtain ⟨_, rfl⟩ | ⟨_, ⟨_, rfl⟩ | ⟨p, _, rfl⟩ | ⟨_, rfl⟩ | ⟨_, hd, _⟩ | ⟨_, _, hm⟩⟩ := step_cases h
  · exact { hs with }
  · exact hn.timerOverflow
  · exact { hn with }
  · exact hn.powerCycle
  · cases hd.symm.trans hn.host
  · exact hn.mainTurn hm

end Sys2Proof.Machine

/-! The main controller's statements, first part: the host's logic as records, and its variables in their ranges over every step. -/

namespace Sys2Proof.Machine

/-! ### The host's logic as one record each (R151, R157 to R163) -/

theorem MainCtl.countHolds_eq (m : MainCtl) (cur : Buttons) : m.countHolds cur = { m with
    startHold := if cur.getLsbD 0 = true then m.startHold + 1 else 0
    modeHold := if cur.getLsbD 1 = true then m.modeHold + 1 else 0 } := rfl

/-- The four outcomes of an Idle iteration (R152 to R156). -/
theorem MainCtl.idleLogic_cases (m : MainCtl) (c : Config) (r : Buttons) :
    m.idleLogic c r =
      { m with todo := [.drain none, .stamp, .lampsOn, .refresh m.duration (dotsWhenIdle c) 0b111#3, .delay] } ∨
    m.idleLogic c r = { m with
      ctl := .setupMin, minutes := 0, seconds := 0, blink := 0
      todo := [.refresh m.duration (dotsWhenIdle c) 0b111#3, .delay] } ∨
    m.idleLogic c r = { m with
      mode := modeSucc m.mode, todo := [.indicate, .refresh m.duration (dotsWhenIdle c) 0b111#3, .delay] } ∨
    m.idleLogic c r = { m with todo := [.refresh m.duration (dotsWhenIdle c) 0b111#3, .delay] } := by
  by_cases hstart : m.startHold = c.startHold
  · exact .inl (m.idleLogic_start r hstart)
  by_cases hmode : m.modeHold = c.modeHold
  · exact .inr (.inl (m.idleLogic_mode r hstart hmode))
  cases hr : r.getLsbD 1 with
  | true => exact .inr (.inr (.inl (m.idleLogic_release hstart hmode hr)))
  | false => exact .inr (.inr (.inr (m.idleLogic_none hstart hmode hr)))

/-- What an iteration of the minutes edit writes (R157 to R159, R163). -/
theorem MainCtl.setupMinLogic_eq (m : MainCtl) (c : Config) (p : Buttons) : m.setupMinLogic c p = { m with
    duration := BitVec.ofNat 16 (m.minutes * 60)
    minutes := if p.getLsbD 0 = true then (m.minutes + 1) % 10 else m.minutes
    blink := if p.getLsbD 0 = true then 0 else m.blink
    todo := (if p.getLsbD 1 = true then [.drain (some .setupSec)] else []) ++
      closing (BitVec.ofNat 16 (m.minutes * 60)) (dotsWhenIdle c) (if m.blink < c.blinkHalf then 0b111#3 else 0b110#3) } := by
  simp only [MainCtl.setupMinLogic, MainCtl.shown, decide_eq_true_eq]
  cases p.getLsbD 0 <;> cases p.getLsbD 1 <;> rfl

/-- What an iteration of the seconds edit writes (R160 to R163). -/
theorem MainCtl.setupSecLogic_eq (m : MainCtl) (c : Config) (p : Buttons) : m.setupSecLogic c p = { m with
    duration := BitVec.ofNat 16 (m.minutes * 60 +
      if p.getLsbD 1 = true then (if p.getLsbD 0 = true then (m.seconds + c.secStep) % 60 else m.seconds) else m.seconds)
    seconds := if p.getLsbD 0 = true then (m.seconds + c.secStep) % 60 else m.seconds
    blink := if p.getLsbD 0 = true then 0 else m.blink
    todo := (if p.getLsbD 1 = true then [.commit, .drain (some .idle)] else []) ++
      closing (BitVec.ofNat 16 (m.minutes * 60 + m.seconds)) (dotsWhenIdle c)
        (if m.blink < c.blinkHalf then 0b111#3 else 0b001#3) } := by
  simp only [MainCtl.setupSecLogic, MainCtl.shown, decide_eq_true_eq]
  cases p.getLsbD 0 <;> cases p.getLsbD 1 <;> rfl

theorem MainCtl.afterPoll_setupMin {m : MainCtl} (c : Config) (r : BitVec 6) (h : m.ctl = .setupMin) :
    m.afterPoll c r = (m.countHolds (currentOf r)).setupMinLogic c (pressedOf r) := by
  simp only [MainCtl.afterPoll, MainCtl.countHolds, h]

theorem MainCtl.afterPoll_setupSec {m : MainCtl} (c : Config) (r : BitVec 6) (h : m.ctl = .setupSec) :
    m.afterPoll c r = (m.countHolds (currentOf r)).setupSecLogic c (pressedOf r) := by
  simp only [MainCtl.afterPoll, MainCtl.countHolds, h]

/-- A drain that reads both buttons released ends (R151); the blink starts anew on entry to every state but Idle (R163). -/
theorem MainCtl.afterDrain_released (m : MainCtl) (into : Option Ctl) {r : BitVec 6} (h : currentOf r = 0b00#2) :
    m.afterDrain into r = { m with
      startHold := 0, modeHold := 0, ctl := into.getD m.ctl
      blink := if into = some .setupMin ∨ into = some .setupSec ∨ into = some .exposure then 0 else m.blink } := by
  simp only [MainCtl.afterDrain, if_pos h]
  match into with
  | none => rfl
  | some .idle => rfl
  | some .setupMin => rfl
  | some .setupSec => rfl
  | some .exposure => rfl

/-- A drain that reads a button pressed puts a pause and another POLL ahead (R151). -/
theorem MainCtl.afterDrain_pressed (m : MainCtl) (into : Option Ctl) {r : BitVec 6} (h : currentOf r ≠ 0b00#2) :
    m.afterDrain into r = { m.countHolds (currentOf r) with todo := .delay :: .drain into :: m.todo } := by
  simp only [MainCtl.afterDrain, if_neg h]
  rfl

/-- A time the host computes fits its 16 bits. -/
theorem seconds_toNat_of_le {n : Nat} (h : n ≤ 599) : (BitVec.ofNat 16 n).toNat = n :=
  Nat.mod_eq_of_lt (h.trans_lt (by decide))

/-! ### The ranges of the host's variables (R145, R162) -/

/-- What the host's invariant asks of the host's variables alone. -/
structure MainCtl.InRange (c : Config) (m : MainCtl) : Prop where
  minutes_le : m.minutes ≤ 9
  seconds_le : m.seconds ≤ 59
  blink_lt : m.blink < c.blinkMod
  entry_lt : m.entry < 2 ^ c.w
  duration_le : m.duration.toNat ≤ maxDuration

theorem hostInv_iff (s : State) : HostInv s ↔ s.cfg.Valid ∧ s.ms < 2 ^ s.cfg.w ∧ s.main.InRange s.cfg := by
  constructor
  · rintro ⟨hcfg, hms, hmin, hsec, hblink, hentry, hdur⟩
    exact ⟨hcfg, hms, hmin, hsec, hblink, hentry, hdur⟩
  · rintro ⟨hcfg, hms, hmin, hsec, hblink, hentry, hdur⟩
    exact ⟨hcfg, hms, hmin, hsec, hblink, hentry, hdur⟩

theorem Config.blinkMod_pos {c : Config} (h : c.Valid) : 0 < c.blinkMod := by
  obtain ⟨_, _, _, _, _, _, hpos⟩ := h
  exact hpos

theorem Config.defaultDuration_le {c : Config} (h : c.Valid) : c.defaultDuration.toNat ≤ maxDuration := by
  obtain ⟨_, _, _, hdef, _⟩ := h
  exact hdef

theorem MainCtl.boot_inRange {c : Config} (h : c.Valid) : MainCtl.boot.InRange c :=
  ⟨Nat.zero_le _, Nat.zero_le _, Config.blinkMod_pos h, Nat.two_pow_pos _, Nat.zero_le _⟩

section

variable {c : Config} {m : MainCtl}

theorem MainCtl.InRange.idleLogic (h : m.InRange c) (hc : c.Valid) (r : Buttons) : (m.idleLogic c r).InRange c := by
  obtain e | e | e | e := m.idleLogic_cases c r
  · rw [e]; exact { h with }
  · rw [e]; exact { h with minutes_le := Nat.zero_le _, seconds_le := Nat.zero_le _, blink_lt := Config.blinkMod_pos hc }
  · rw [e]; exact { h with }
  · rw [e]; exact { h with }

theorem MainCtl.InRange.blink_restart (h : m.InRange c) (hc : c.Valid) (b : Bool) :
    (if b = true then 0 else m.blink) < c.blinkMod := by
  split
  · exact Config.blinkMod_pos hc
  · exact h.blink_lt

theorem MainCtl.InRange.setupMinLogic (h : m.InRange c) (hc : c.Valid) (p : Buttons) : (m.setupMinLogic c p).InRange c := by
  have hmin := h.minutes_le
  rw [MainCtl.setupMinLogic_eq]
  refine { h with minutes_le := ?_, blink_lt := h.blink_restart hc _, duration_le := ?_ }
  · dsimp only
    split <;> omega
  · rw [seconds_toNat_of_le (by omega), maxDuration]
    omega

theorem MainCtl.InRange.setupSecLogic (h : m.InRange c) (hc : c.Valid) (p : Buttons) : (m.setupSecLogic c p).InRange c := by
  have hmin := h.minutes_le
  have hsec := h.seconds_le
  have hedit : (if p.getLsbD 0 = true then (m.seconds + c.secStep) % 60 else m.seconds) ≤ 59 := by split <;> omega
  rw [MainCtl.setupSecLogic_eq]
  refine { h with seconds_le := hedit, blink_lt := h.blink_restart hc _, duration_le := ?_ }
  dsimp only
  split <;> rw [seconds_toNat_of_le (by omega), maxDuration] <;> omega

theorem MainCtl.InRange.afterPoll (h : m.InRange c) (hc : c.Valid) (r : BitVec 6) : (m.afterPoll c r).InRange c := by
  have counted : (m.countHolds (currentOf r)).InRange c := { h with }
  cases hctl : m.ctl with
  | idle =>
    rw [MainCtl.afterPoll_idle c r hctl]
    exact counted.idleLogic hc _
  | setupMin =>
    rw [MainCtl.afterPoll_setupMin c r hctl]
    exact counted.setupMinLogic hc _
  | setupSec =>
    rw [MainCtl.afterPoll_setupSec c r hctl]
    exact counted.setupSecLogic hc _
  | exposure =>
    rw [MainCtl.afterPoll_exposure c r hctl]
    exact { h with }

theorem MainCtl.InRange.afterDrain (h : m.InRange c) (hc : c.Valid) (into : Option Ctl) (r : BitVec 6) :
    (m.afterDrain into r).InRange c := by
  by_cases hr : currentOf r = 0b00#2
  · rw [MainCtl.afterDrain_released m into hr]
    refine { h with blink_lt := ?_ }
    dsimp only
    split
    · exact Config.blinkMod_pos hc
    · exact h.blink_lt
  · rw [MainCtl.afterDrain_pressed m into hr]
    exact { h with }

/-- The host's reaction to an answer keeps its variables in range when a timestamp has `W` bits and a loaded duration is at most
599. -/
theorem MainCtl.InRange.reactionTo (h : m.InRange c) (hc : c.Valid) (a : HostAct) {r : Option Result}
    (hstamp : a = .stamp → millisOf r < 2 ^ c.w) (hload : a = .load → (durationOf r).toNat ≤ maxDuration) :
    (reactionTo a c r m).InRange c := by
  cases a with
  | load => exact { h with duration_le := hload rfl }
  | start => exact { h with blink_lt := Config.blinkMod_pos hc }
  | drain into => exact h.afterDrain hc into _
  | stamp => exact { h with entry_lt := hstamp rfl }
  | lampsOn => exact { h with blink_lt := Config.blinkMod_pos hc }
  | countdown cur => exact { h with }
  | refresh time dots mask => exact { h with blink_lt := Nat.mod_lt _ (Config.blinkMod_pos hc) }
  | indicate => exact h
  | lampsOff => exact h
  | commit => exact h
  | delay => exact h

end

/-- No operation moves the clock, and none writes the host's variables (R20). -/
theorem exec_keeps_hostInv {i : Instr} {s t : State} (h : exec i s = .next t) (hs : HostInv s) : HostInv t := by
  obtain ⟨⟨hcfg, hms, _, _, _, _, _, _, hmain⟩, _⟩ := operationsWriteOnlyTheirRegisters i s t h
  rw [hostInv_iff] at hs ⊢
  rwa [hcfg, hms, hmain]

theorem HostInv.setMain {s : State} {m : MainCtl} (h : HostInv s) (hm : m.InRange s.cfg) : HostInv (s.setMain m) := by
  obtain ⟨hcfg, hms, _⟩ := (hostInv_iff s).mp h
  exact (hostInv_iff _).mpr ⟨hcfg, hms, hm⟩

theorem HostInv.nextTurn {s : State} (h : HostInv s) : HostInv s.nextTurn.2 := by
  simpa only [hostInv_iff, State.nextTurn_cfg, State.nextTurn_ms, State.nextTurn_main] using h

theorem HostInv.tick {s : State} (h : HostInv s) : HostInv s.tick := by
  rw [State.tick_eq s h.ms_lt]
  exact { h with ms_lt := Nat.mod_lt _ (Nat.two_pow_pos _) }

theorem HostInv.timerOverflow {s : State} (h : HostInv s) : HostInv s.timerOverflow := by
  unfold State.timerOverflow
  split
  · exact h.tick
  · exact { h with }

/-- A power cycle puts the clock at 0 and the host at its boot (R205). -/
theorem HostInv.powerCycle {s : State} (h : HostInv s) : HostInv s.powerCycle :=
  (hostInv_iff _).mpr ⟨h.params, Nat.two_pow_pos _, MainCtl.boot_inRange h.params⟩

/-- The entry whose operation is NOW or LOAD gets an answer in range from it (R93, R125). -/
theorem HostInv.hostAct {a : HostAct} {s t : State} (hs : HostInv s) (h : hostAct a s = .next t) : HostInv t := by
  obtain ⟨_, rfl⟩ | ⟨i, u, hop, hx, rfl⟩ := hostAct_next h
  · exact hs
  · have hu : HostInv u := exec_keeps_hostInv hx hs
    obtain ⟨hcfg, hms, hrange⟩ := (hostInv_iff u).mp hu
    refine hu.setMain (hrange.reactionTo hcfg a ?_ ?_)
    · rintro rfl
      cases hop
      rw [execNow_next hx] at hms ⊢
      exact hms
    · rintro rfl
      cases hop
      obtain ⟨raw, _, rfl⟩ := execLoad_next hx
      exact normalise_le (Config.defaultDuration_le hcfg) raw

theorem HostInv.mainTurn {s t : State} (hs : HostInv s) (h : mainTurn s = .next t) : HostInv t := by
  obtain ⟨_, u, hx, rfl⟩ | ⟨a, rest, _, ha⟩ := mainTurn_next h
  · have hu : HostInv u := exec_keeps_hostInv hx hs
    obtain ⟨hcfg, _, hrange⟩ := (hostInv_iff u).mp hu
    exact hu.setMain (hrange.afterPoll hcfg _)
  · exact HostInv.hostAct (s := s.setMain { s.main with todo := rest }) { hs with } ha

theorem HostInv.listTurn {s t : State} (hs : HostInv s) (h : listTurn s = .next t) : HostInv t := by
  obtain ⟨_, rest, _, _, _, hx⟩ := listTurn_next h
  exact exec_keeps_hostInv (s := s.setCmds rest) hx { hs with }

/-- Settles O39: each agent's move keeps the ranges, and so does the delivery of a held overflow. -/
theorem stepKeepsTheHostInvariant : Obligations.StepKeepsTheHostInvariant := by
  intro s t hs h
  have hn : HostInv s.nextTurn.2 := hs.nextTurn
  obtain ⟨_, rfl⟩ | ⟨_, ⟨_, rfl⟩ | ⟨p, _, rfl⟩ | ⟨_, rfl⟩ | ⟨_, _, hl⟩ | ⟨_, _, hm⟩⟩ := step_cases h
  · exact HostInv.tick (s := s.setTickPend false) { hs with }
  · exact hn.timerOverflow
  · exact { hn with }
  · exact hn.powerCycle
  · exact hn.listTurn hl
  · exact hn.mainTurn hm

/-- Settles O40: the parameters at reset are R5's defaults, and the host is at its boot. -/
theorem resetMeetsTheHostInvariant : Obligations.ResetMeetsTheHostInvariant := by
  have hcfg : Config.default.Valid := by
    refine ⟨by decide, ?_, by decide, by decide, by decide, by decide, by decide⟩
    intro us h
    cases h
  exact (hostInv_iff _).mpr ⟨hcfg, Nat.two_pow_pos _, MainCtl.boot_inRange hcfg⟩

end Sys2Proof.Machine

/-! The main controller's statements, second part: each turn of the reference host, and an iteration of Idle. -/

namespace Sys2Proof.Machine

/-! ### The turns of the host's list, one lemma each (R147 to R168) -/

section

variable {s : State} {rest : List HostAct}

theorem exec_load_storedValue (s : State) (hlt : s.cfg.nvAddr + 1 < s.cfg.nvSize) :
    exec .load s = .next (s.answer (some (.duration (normalise s.cfg s.storedValue)))) := exec_load_of_lt hlt

theorem exec_load_nextTurn (s : State) (hlt : s.cfg.nvAddr + 1 < s.cfg.nvSize) :
    exec .load s.nextTurn.2 = .next (s.nextTurn.2.answer (some (.duration (normalise s.cfg s.storedValue)))) := by
  rw [exec_load_storedValue s.nextTurn.2 (by rwa [State.nextTurn_cfg])]
  simp only [State.storedValue, State.nextTurn_cfg, State.nextTurn_nv]

theorem step_of_load (h : s.hostDoes .load) (hr : s.main.todo = .load :: rest) (hlt : s.cfg.nvAddr + 1 < s.cfg.nvSize) :
    step s = .next ((s.nextTurn.2.answer (some (.duration (normalise s.cfg s.storedValue)))).setMain
      { s.main with duration := normalise s.cfg s.storedValue, todo := rest }) :=
  step_of_hostDoes h hr rfl (exec_load_nextTurn s hlt)

theorem step_of_start (h : s.hostDoes .start) (hr : s.main.todo = .start :: rest) :
    step s = .next (((s.nextTurn.2.setLed 0b01#2).answer none).setMain { s.main with
      ctl := .idle, mode := .top, startHold := 0, modeHold := 0, blink := 0, todo := rest }) :=
  step_of_hostDoes h hr rfl rfl

theorem exec_showMode_modeNumber (m : Mode) (s : State) :
    exec (.showMode (modeNumber m)) s = .next ((s.setLed (modePattern m)).answer none) :=
  exec_showMode_of_some s (by cases m <;> rfl)

theorem step_of_indicate (h : s.hostDoes .indicate) (hr : s.main.todo = .indicate :: rest) :
    step s = .next (((s.nextTurn.2.setLed (modePattern s.main.mode)).answer none).setMain { s.main with todo := rest }) :=
  step_of_hostDoes h hr rfl (exec_showMode_modeNumber s.main.mode _)

theorem exec_now_nextTurn (s : State) :
    exec .now s.nextTurn.2 = .next ((s.nextTurn.2.setIe true).answer (some (.millis s.ms))) :=
  (exec_now_eq _).trans (by rw [State.nextTurn_ms])

theorem step_of_stamp (h : s.hostDoes .stamp) (hr : s.main.todo = .stamp :: rest) :
    step s = .next (((s.nextTurn.2.setIe true).answer (some (.millis s.ms))).setMain
      { s.main with entry := s.ms, todo := rest }) :=
  step_of_hostDoes h hr rfl (exec_now_nextTurn s)

theorem step_of_lampsOn (h : s.hostDoes .lampsOn) (hr : s.main.todo = .lampsOn :: rest) :
    step s = .next (((s.nextTurn.2.setUv (modePattern s.main.mode)).answer none).setMain
      { s.main with ctl := .exposure, startHold := 0, blink := 0, todo := rest }) :=
  step_of_hostDoes h hr (congrArg some (exposeOp_eq s.main.mode)) rfl

theorem step_of_lampsOff (h : s.hostDoes .lampsOff) (hr : s.main.todo = .lampsOff :: rest) :
    step s = .next (((s.nextTurn.2.setUv 0b00#2).answer none).setMain { s.main with todo := rest }) :=
  step_of_hostDoes h hr rfl rfl

theorem step_of_countdown {cur : Buttons} (h : s.hostDoes (.countdown cur)) (hr : s.main.todo = .countdown cur :: rest) :
    step s = .next (((s.nextTurn.2.setIe true).answer (some (.millis s.ms))).setMain
      { s.main with todo := s.main.exposureLogic s.cfg s.ms cur ++ rest }) :=
  step_of_hostDoes h hr rfl (exec_now_nextTurn s)

theorem step_of_commit (h : s.hostDoes .commit) (hr : s.main.todo = .commit :: rest)
    (hlt : s.cfg.nvAddr + 1 < s.cfg.nvSize) :
    ∃ u, exec (.save s.main.duration) s.nextTurn.2 = .next u ∧ step s = .next (u.setMain { s.main with todo := rest }) := by
  have hx := exec_save_of_lt (s := s.nextTurn.2) s.main.duration (by rwa [State.nextTurn_cfg])
  exact ⟨_, hx, step_of_hostDoes h hr rfl hx⟩

theorem step_of_refresh {time : Seconds} {dots : BitVec 8} {mask : BitVec 3} (h : s.hostDoes (.refresh time dots mask))
    (hr : s.main.todo = .refresh time dots mask :: rest) :
    ∃ u, exec (.refresh time dots mask) s.nextTurn.2 = .next u ∧
      step s = .next (u.setMain { s.main with blink := (s.main.blink + 1) % s.cfg.blinkMod, todo := rest }) :=
  ⟨_, rfl, step_of_hostDoes h hr rfl rfl⟩

end

/-- Settles O45: turn by turn, each operation and the host variables its reaction writes. -/
theorem hostTurnsPerformTheirOperations : Obligations.HostTurnsPerformTheirOperations := by
  intro s rest
  exact ⟨fun h hr hlt => ⟨_, _, exec_load_nextTurn s hlt, rfl, step_of_load h hr hlt⟩,
    fun h hr => ⟨_, exec_showMode_modeNumber .top _, step_of_start h hr⟩,
    fun h hr => ⟨_, exec_showMode_modeNumber s.main.mode _, step_of_indicate h hr⟩,
    fun h hr => ⟨_, exec_now_nextTurn s, rfl, step_of_stamp h hr⟩,
    fun h hr => ⟨_, exec_chan_eq (modePattern s.main.mode) _, step_of_lampsOn h hr⟩,
    fun h hr => ⟨_, exec_chan_eq 0b00#2 _, step_of_lampsOff h hr⟩, step_of_commit,
    fun _ _ _ => step_of_refresh, step_of_delay⟩

/-- Settles O54: a SAVE leaves its operand as the stored value. -/
theorem commitStoresTheDuration : Obligations.CommitStoresTheDuration := by
  intro s rest h hr hlt
  obtain ⟨u, hx, hstep⟩ := step_of_commit h hr hlt
  have hcfg : u.cfg = s.cfg := (exec_keeps hx).1.trans s.nextTurn_cfg
  refine ⟨_, hstep, ?_, rfl⟩
  have hread : u.nvRead16 = some u.storedValue := u.nvRead16_eq.trans (if_pos (by rwa [hcfg]))
  exact hread.trans (congrArg some (exec_save_storedValue hx))

/-- Settles O57: the choice of the turn leaves the cursor and the parameters a REFRESH reads. -/
theorem refreshTurnMovesTheBlinkCounter : Obligations.RefreshTurnMovesTheBlinkCounter := by
  intro s time dots mask rest h hr
  obtain ⟨u, hx, hstep⟩ := step_of_refresh h hr
  refine ⟨_, _, hstep, exec_refresh_eq time dots mask s, ?_⟩
  rw [execRefresh_next hx]
  simp

theorem run_two {s t u : State} (hst : step s = .next t) (htu : step t = .next u) :
    Host.Core.run Sys2Proof.core 2 s = .next u :=
  (run_succ 1 hst).trans (run_succ 0 htu)

/-- Settles O43: the LOAD turn leaves SHOW Top and a turn of the host ahead. -/
theorem hostBootsWithLoadAndShow : Obligations.HostBootsWithLoadAndShow := by
  intro s hdriver hboot hpend hsched hlt
  have htodo : s.main.todo = [.load, .start] := by rw [hboot]; rfl
  have hturn : s.nextTurn = (.host, s.setSched [.host]) := by simp only [State.nextTurn, hsched]
  have hheld : s.tickHeld = false := State.tickHeld_of_none_pending hpend
  have hload : s.hostDoes .load := ⟨hheld, by rw [hturn], hdriver, _, htodo⟩
  have hstep := step_of_load hload htodo hlt
  rw [hturn] at hstep
  have hstart : (((s.setSched [.host]).answer (some (.duration (normalise s.cfg s.storedValue)))).setMain
      { s.main with duration := normalise s.cfg s.storedValue, todo := [.start] }).hostDoes .start :=
    ⟨hheld, rfl, hdriver, [], rfl⟩
  have hstep' := step_of_start hstart rfl
  exact ⟨_, _, _, _, exec_load_storedValue s hlt, rfl, hstep, rfl, rfl, rfl, rfl, hstep', rfl, rfl, by simp, rfl,
    run_two hstep hstep'⟩

/-! ### The POLL of an iteration (R148, R150) -/

/-- After the turn that begins an iteration, the host's variables are what its logic makes of the button registers. -/
theorem main_of_hostPolls {s t : State} (h : s.hostPolls) (hs : step s = .next t) :
    t.uv = s.uv ∧ t.main = s.main.afterPoll s.cfg (pollWord t.btnCur t.btnPrev) := by
  obtain ⟨u, _, huv, _, hstep⟩ := step_of_hostPolls h
  cases hstep.symm.trans hs
  exact ⟨huv, rfl⟩

theorem exists_step_of_hostPolls {s : State} (h : s.hostPolls) : ∃ t, step s = .next t := by
  obtain ⟨u, _, _, _, hstep⟩ := step_of_hostPolls h
  exact ⟨_, hstep⟩

/-- Settles O44: the logic of every state leaves the hold counters as the POLL counted them. -/
theorem holdCountersCountPolls : Obligations.HoldCountersCountPolls := by
  intro s h
  obtain ⟨u, hx, _, _, hstep⟩ := step_of_hostPolls h
  obtain ⟨hstart, hmode⟩ := s.main.afterPoll_holds s.cfg (pollWord u.btnCur u.btnPrev)
  rw [currentOf_pollWord] at hstart hmode
  exact ⟨u, _, hx, hstep, rfl, hstart, hmode⟩

theorem currentOf_exec_poll {s u : State} (h : exec .poll s = .next u) : currentOf (buttonsOf u.result) = u.btnCur := by
  obtain ⟨cur, stamp, n, _, rfl⟩ := execPoll_cases h
  exact currentOf_pollWord cur s.btnCur

/-- All a drain's turn does (R151): one POLL, and the drain ends or goes on as it reads the buttons. -/
theorem step_of_drain {s : State} {into : Option Ctl} {rest : List HostAct} (h : s.hostDoes (.drain into))
    (hr : s.main.todo = .drain into :: rest) :
    ∃ u m, exec .poll s.nextTurn.2 = .next u ∧ step s = .next (u.setMain m) ∧
      (u.btnCur = 0b00#2 → m = { s.main with
        startHold := 0, modeHold := 0, todo := rest, ctl := into.getD s.main.ctl
        blink := if into = some .setupMin ∨ into = some .setupSec ∨ into = some .exposure then 0 else s.main.blink }) ∧
      (u.btnCur ≠ 0b00#2 → m = { s.main.countHolds u.btnCur with todo := .delay :: .drain into :: rest }) := by
  obtain ⟨u, hx⟩ : ∃ u, exec .poll s.nextTurn.2 = .next u := ⟨_, rfl⟩
  have hcur := currentOf_exec_poll hx
  refine ⟨u, _, hx, step_of_hostDoes h hr rfl hx, fun hreleased => ?_, fun hpressed => ?_⟩
  · exact MainCtl.afterDrain_released _ into (hcur.trans hreleased)
  · refine (MainCtl.afterDrain_pressed _ into (hcur.trans_ne hpressed)).trans ?_
    rw [hcur]
    rfl

/-- Settles O49: a POLL writes neither the display nor the lamps, and the drain ends or goes on as it reads the buttons. -/
theorem drainPollsUntilReleased : Obligations.DrainPollsUntilReleased := by
  intro s into rest h hr
  obtain ⟨u, m, hx, hstep, hreleased, hpressed⟩ := step_of_drain h hr
  obtain ⟨cur, stamp, n, _, rfl⟩ := execPoll_cases hx
  refine ⟨_, _, hx, hstep, rfl, by simp, hreleased, fun hcur => ?_⟩
  rw [State.setMain_main, hpressed hcur]
  rfl

/-! ### An Idle iteration (R152 to R156) -/

section

variable {s t : State}

theorem main_of_idle (h : s.hostPolls) (hctl : s.main.ctl = .idle) (hs : step s = .next t) :
    t.main = (s.main.countHolds t.btnCur).idleLogic s.cfg (releasedSet t.btnCur t.btnPrev) := by
  obtain ⟨_, hmain⟩ := main_of_hostPolls h hs
  rwa [MainCtl.afterPoll_idle _ _ hctl, currentOf_pollWord, releasedOf_pollWord] at hmain

theorem holds_of_hostPolls (h : s.hostPolls) (hs : step s = .next t) :
    t.main.startHold = (s.main.countHolds t.btnCur).startHold ∧ t.main.modeHold = (s.main.countHolds t.btnCur).modeHold := by
  obtain ⟨_, hmain⟩ := main_of_hostPolls h hs
  rw [hmain]
  simpa only [currentOf_pollWord] using s.main.afterPoll_holds s.cfg (pollWord t.btnCur t.btnPrev)

end

theorem modeNumber_modeSucc (m : Mode) : (modeNumber (modeSucc m)).toNat = ((modeNumber m).toNat + 1) % 3 := by
  cases m <;> rfl

/-- Settles O46: no threshold having fired, the released edge decides; SHOW drives the lines of the Mode. -/
theorem modeCyclesOnRelease : Obligations.ModeCyclesOnRelease := by
  refine ⟨fun s t h hctl hs hprev hcur hstart hmode => ?_, fun s rest h hr => ⟨_, step_of_indicate h hr, rfl, ?_, rfl⟩⟩
  · obtain ⟨hs1, hs2⟩ := holds_of_hostPolls h hs
    have hmain := main_of_idle h hctl hs
    rw [MainCtl.idleLogic_release (hs1 ▸ hstart) (hs2 ▸ hmode)
      (by rw [getLsbD_releasedSet _ _ _ (by decide), hprev, hcur]; rfl)] at hmain
    rw [hmain]
    exact ⟨modeNumber_modeSucc _, rfl⟩
  · simp

/-- Settles O47: the Start threshold goes before everything else, and each of the turns it puts ahead is the host's own. -/
theorem longStartPressLeadsToExposure : Obligations.LongStartPressLeadsToExposure := by
  refine ⟨fun s t h hctl hs hstart => ?_, fun s rest h hr => ⟨_, step_of_stamp h hr, rfl, ?_, rfl⟩,
    fun s rest h hr => ⟨_, step_of_lampsOn h hr, rfl, rfl, rfl, rfl, rfl⟩⟩
  · obtain ⟨hs1, _⟩ := holds_of_hostPolls h hs
    obtain ⟨huv, _⟩ := main_of_hostPolls h hs
    have hmain := main_of_idle h hctl hs
    rw [MainCtl.idleLogic_start _ (hs1 ▸ hstart)] at hmain
    rw [hmain]
    exact ⟨huv, rfl⟩
  · simp

/-- Settles O48: with no long Start press, the Mode threshold decides. -/
theorem longModePressLeadsToSetup : Obligations.LongModePressLeadsToSetup := by
  intro s t h hctl hs hstart hmode
  obtain ⟨hs1, hs2⟩ := holds_of_hostPolls h hs
  have hmain := main_of_idle h hctl hs
  rw [MainCtl.idleLogic_mode _ (hs1 ▸ hstart) (hs2 ▸ hmode)] at hmain
  rw [hmain]
  rfl

/-- Each of the four outcomes of an Idle iteration closes with the same REFRESH and puts no other on the list. -/
theorem MainCtl.refresh_mem_idleLogic_iff (m : MainCtl) (c : Config) (r : Buttons) (time : Seconds) (dots : BitVec 8)
    (mask : BitVec 3) : .refresh time dots mask ∈ (m.idleLogic c r).todo ↔
      time = m.duration ∧ dots = dotsWhenIdle c ∧ mask = 0b111#3 := by
  obtain e | e | e | e := m.idleLogic_cases c r <;> simp [e]

/-- Settles O56: the logic of every outcome shows the duration, which the POLL has left; with no trigger it does no more. -/
theorem idleShowsTheDuration : Obligations.IdleShowsTheDuration := by
  refine ⟨fun s h hctl => ?_, fun s t h hctl hs hstart hmode hrel => ?_, fun c d hd => by simp only [dotsWhenIdle, hd]⟩
  · obtain ⟨t, hs⟩ := exists_step_of_hostPolls h
    refine ⟨t, hs, fun time dots mask => ?_⟩
    rw [main_of_idle h hctl hs]
    exact MainCtl.refresh_mem_idleLogic_iff _ s.cfg _ time dots mask
  · obtain ⟨hs1, hs2⟩ := holds_of_hostPolls h hs
    have hmain := main_of_idle h hctl hs
    have hnone : (releasedSet t.btnCur t.btnPrev).getLsbD 1 = false := by
      rw [getLsbD_releasedSet _ _ _ (by decide)]
      obtain hprev | hcur := hrel
      · rw [hprev, Bool.and_false]
      · rw [hcur, Bool.not_true, Bool.false_and]
    rw [MainCtl.idleLogic_none (hs1 ▸ hstart) (hs2 ▸ hmode) hnone] at hmain
    rw [hmain]
    rfl

end Sys2Proof.Machine

/-! The main controller's statements, third part: an iteration of Time-Setup, and one of Exposure. -/

namespace Sys2Proof.Machine

/-! ### Time-Setup (R157 to R164) -/

section

variable {s t : State}

theorem main_of_setupMin (h : s.hostPolls) (hctl : s.main.ctl = .setupMin) (hs : step s = .next t) :
    t.main = (s.main.countHolds t.btnCur).setupMinLogic s.cfg (pressedSet t.btnCur t.btnPrev) := by
  obtain ⟨_, hmain⟩ := main_of_hostPolls h hs
  rwa [MainCtl.afterPoll_setupMin _ _ hctl, currentOf_pollWord, pressedOf_pollWord] at hmain

theorem main_of_setupSec (h : s.hostPolls) (hctl : s.main.ctl = .setupSec) (hs : step s = .next t) :
    t.main = (s.main.countHolds t.btnCur).setupSecLogic s.cfg (pressedSet t.btnCur t.btnPrev) := by
  obtain ⟨_, hmain⟩ := main_of_hostPolls h hs
  rwa [MainCtl.afterPoll_setupSec _ _ hctl, currentOf_pollWord, pressedOf_pollWord] at hmain

end

/-- The Mode press of an iteration puts its entries before the REFRESH and the DELAY; without it they are all (R148). -/
theorem todo_of_mode_press (press : Bool) (entries : List HostAct) (time : Seconds) (dots : BitVec 8) (mask : BitVec 3) :
    ∃ time' dots' mask',
      (press = true → (if press = true then entries else []) ++ closing time dots mask =
        entries ++ [.refresh time' dots' mask', .delay]) ∧
      (press = false → (if press = true then entries else []) ++ closing time dots mask =
        [.refresh time' dots' mask', .delay]) := by
  refine ⟨time, dots, mask, ?_, ?_⟩
  · rintro rfl; rfl
  · rintro rfl; rfl

/-- Settles O53: the two edit states' logic, the pressed edges being the bits of the edge set. -/
theorem timeSetupEditsByPresses : Obligations.TimeSetupEditsByPresses := by
  intro s h hmin hsec
  obtain ⟨t, hs⟩ := exists_step_of_hostPolls h
  refine ⟨t, hs, ?_⟩
  dsimp only
  rw [← getLsbD_pressedSet t.btnCur t.btnPrev 0 (by decide), ← getLsbD_pressedSet t.btnCur t.btnPrev 1 (by decide)]
  refine ⟨fun hctl => ?_, fun hctl => ?_⟩
  · rw [main_of_setupMin h hctl hs, MainCtl.setupMinLogic_eq]
    have hdur : s.main.minutes * 60 ≤ 599 := by omega
    exact ⟨rfl, rfl, rfl, seconds_toNat_of_le hdur, todo_of_mode_press _ _ _ _ _⟩
  · rw [main_of_setupSec h hctl hs, MainCtl.setupSecLogic_eq]
    refine ⟨rfl, rfl, rfl, seconds_toNat_of_le ?_, todo_of_mode_press _ _ _ _ _⟩
    dsimp only [MainCtl.countHolds_eq]
    repeat' split
    all_goals omega

/-- The one REFRESH that closes an iteration. -/
theorem refresh_mem_closing {time time' : Seconds} {dots dots' : BitVec 8} {mask mask' : BitVec 3} :
    HostAct.refresh time dots mask ∈ closing time' dots' mask' ↔ time = time' ∧ dots = dots' ∧ mask = mask' := by
  simp [closing]

theorem eq_ofNat_iff_toNat {v : Seconds} {n : Nat} (h : n ≤ 599) : v = BitVec.ofNat 16 n ↔ v.toNat = n := by
  rw [← BitVec.toNat_inj, seconds_toNat_of_le h]

/-- Settles O55: a press puts no REFRESH of its own on the list. -/
theorem timeSetupBlinksTheEditedDigits : Obligations.TimeSetupBlinksTheEditedDigits := by
  intro s h hmin hsec
  obtain ⟨t, hs⟩ := exists_step_of_hostPolls h
  refine ⟨t, hs, fun hctl time dots mask => ?_, fun hctl time dots mask => ?_⟩
  · rw [main_of_setupMin h hctl hs, MainCtl.setupMinLogic_eq, ← eq_ofNat_iff_toNat (by omega)]
    refine List.mem_append.trans ((or_iff_right ?_).trans refresh_mem_closing)
    split <;> simp
  · rw [main_of_setupSec h hctl hs, MainCtl.setupSecLogic_eq, ← eq_ofNat_iff_toNat (by omega)]
    refine List.mem_append.trans ((or_iff_right ?_).trans refresh_mem_closing)
    split <;> simp

/-! `n` presses of Start, from an edit value at 0. -/

theorem minutes_of_start_presses {x : MainCtl} (c : Config) {n : Nat} (hx : x.minutes = 0) (hn : n ≤ 9) :
    ((fun z => MainCtl.setupMinLogic z c 0b01#2)^[n] x).minutes = n ∧
    ((fun z => MainCtl.setupMinLogic z c 0b01#2)^[n] x).seconds = x.seconds := by
  induction n with
  | zero => exact ⟨hx, rfl⟩
  | succ n ih =>
    obtain ⟨hmin, hsec⟩ := ih (by omega)
    rw [Function.iterate_succ_apply', MainCtl.setupMinLogic_eq]
    refine ⟨?_, hsec⟩
    calc _ = (((fun z => MainCtl.setupMinLogic z c 0b01#2)^[n] x).minutes + 1) % 10 := rfl
      _ = n + 1 := by omega

theorem seconds_of_start_presses {x : MainCtl} {c : Config} {n : Nat} (hc : c.secStep = 5) (hx : x.seconds = 0)
    (hn : n ≤ 11) :
    ((fun z => MainCtl.setupSecLogic z c 0b01#2)^[n] x).seconds = 5 * n ∧
    ((fun z => MainCtl.setupSecLogic z c 0b01#2)^[n] x).minutes = x.minutes := by
  induction n with
  | zero => exact ⟨hx, rfl⟩
  | succ n ih =>
    obtain ⟨hsec, hmin⟩ := ih (by omega)
    rw [Function.iterate_succ_apply', MainCtl.setupSecLogic_eq]
    refine ⟨?_, hmin⟩
    calc _ = (((fun z => MainCtl.setupSecLogic z c 0b01#2)^[n] x).seconds + c.secStep) % 60 := rfl
      _ = 5 * (n + 1) := by omega

theorem MainCtl.setupMinLogic_mode_press (z : MainCtl) (c : Config) :
    (z.setupMinLogic c 0b10#2).minutes = z.minutes ∧ (z.setupMinLogic c 0b10#2).seconds = z.seconds ∧
    (z.setupMinLogic c 0b10#2).todo.head? = some (.drain (some .setupSec)) := by
  rw [MainCtl.setupMinLogic_eq]
  exact ⟨rfl, rfl, rfl⟩

theorem MainCtl.setupSecLogic_mode_press (z : MainCtl) (c : Config) (h : z.minutes * 60 + z.seconds ≤ 599) :
    (z.setupSecLogic c 0b10#2).duration.toNat = z.minutes * 60 + z.seconds ∧
    (z.setupSecLogic c 0b10#2).todo.head? = some .commit := by
  rw [MainCtl.setupSecLogic_eq]
  exact ⟨seconds_toNat_of_le h, rfl⟩

/-- Settles O52: the presses of each edit by induction on their number; the Mode press and the drain keep both edit values. -/
theorem timeSetupReachesItsDurations : Obligations.TimeSetupReachesItsDurations := by
  intro x c m k r hc hmin hsec hm hk hr edited pressed drained chosen done
  obtain ⟨hmin_edited, hsec_edited⟩ := minutes_of_start_presses c hmin hm
  obtain ⟨hmin_pressed, hsec_pressed, htodo⟩ := MainCtl.setupMinLogic_mode_press edited c
  replace hmin_pressed : pressed.minutes = m := hmin_pressed.trans hmin_edited
  replace hsec_pressed : pressed.seconds = 0 := (hsec_pressed.trans hsec_edited).trans hsec
  have hdrained : drained = _ := MainCtl.afterDrain_released _ (some .setupSec) hr
  have hsec_drained : drained.seconds = 0 := by rw [hdrained]; exact hsec_pressed
  have hmin_drained : drained.minutes = m := by rw [hdrained]; exact hmin_pressed
  obtain ⟨hsec_chosen, hmin_chosen⟩ := seconds_of_start_presses hc hsec_drained hk
  have htotal : chosen.minutes * 60 + chosen.seconds = 60 * m + 5 * k := by
    rw [hmin_chosen.trans hmin_drained, hsec_chosen, Nat.mul_comm]
  obtain ⟨hdur, hcommit⟩ := MainCtl.setupSecLogic_mode_press chosen c (by omega)
  refine ⟨⟨hmin_pressed, hsec_pressed, htodo⟩, ⟨?_, hmin_drained, hsec_drained, ?_⟩, hdur.trans htotal, hcommit⟩
  · rw [hdrained]; rfl
  · rw [hdrained]; rfl

/-! ### The time that remains of an exposure (R166, R172) -/

/-- `elapsed` is the whole seconds of the time since entry, modulo `2^W`, on the integers. -/
theorem MainCtl.elapsed_cast (m : MainCtl) (c : Config) (now : Nat) :
    (m.elapsed c now : Int) = ((now : Int) - m.entry + 2 ^ c.w) % 2 ^ c.w / 1000 := by
  have hsub := subW_cast c.w now m.entry
  push_cast at hsub
  rw [Int.add_emod_right, ← hsub, MainCtl.elapsed]
  rfl

/-- `remaining` is the duration less `elapsed`, cut off at 0. -/
theorem MainCtl.remaining_cast (m : MainCtl) (c : Config) (now : Nat) :
    (m.remaining c now : Int) = max ((m.duration.toNat : Int) - ((now : Int) - m.entry + 2 ^ c.w) % 2 ^ c.w / 1000) 0 := by
  rw [← m.elapsed_cast c now, MainCtl.remaining]
  omega

theorem MainCtl.remaining_eq_zero_iff (m : MainCtl) (c : Config) (now : Nat) :
    m.remaining c now = 0 ↔ (m.duration.toNat : Int) ≤ ((now : Int) - m.entry + 2 ^ c.w) % 2 ^ c.w / 1000 := by
  have h := m.remaining_cast c now
  omega

/-- Settles O51: both facts on the integers of R166. -/
theorem remainingCountsDown : Obligations.RemainingCountsDown := by
  intro m c now1 now2
  have h1 := m.remaining_cast c now1
  have h2 := m.remaining_cast c now2
  refine ⟨fun hle => ?_, ?_⟩
  · omega
  · rw [m.remaining_eq_zero_iff c now1]
    omega

/-- What remains fits the 16 bits of REFRESH's operand. -/
theorem MainCtl.remaining_toNat (m : MainCtl) (c : Config) (now : Nat) :
    (BitVec.ofNat 16 (m.remaining c now)).toNat = m.remaining c now :=
  Nat.mod_eq_of_lt ((Nat.sub_le _ _).trans_lt m.duration.isLt)

theorem MainCtl.exits_iff (m : MainCtl) (c : Config) (now : Nat) (cur : Buttons) :
    m.exits c now cur = true ↔ (m.remaining c now = 0 ∧ cur.getLsbD 0 = true) ∨ m.startHold = c.startHold := by
  simp only [MainCtl.exits, Bool.or_eq_true, Bool.and_eq_true, decide_eq_true_eq]

/-! ### What the countdown puts before its REFRESH (R168 to R171) -/

/-- The lamps-off turns and the way out: at zero the lamps go off, and an exit turns them off and drains into Idle. -/
def lampsOffAndWayOut (timeUp leave : Bool) : List HostAct :=
  (if timeUp = true then [.lampsOff] else []) ++ (if leave = true then [.lampsOff, .drain (some .idle)] else [])

theorem MainCtl.exposureLogic_eq (m : MainCtl) (c : Config) (now : Nat) (cur : Buttons) :
    m.exposureLogic c now cur = lampsOffAndWayOut (decide (m.remaining c now = 0)) (m.exits c now cur) ++
      closing (BitVec.ofNat 16 (m.remaining c now)) (if m.shown c = true then c.dotSentinel else 0x00#8)
        (if 0 < m.remaining c now then 0b111#3 else if m.shown c = true then 0b111#3 else 0b000#3) := by
  simp only [MainCtl.exposureLogic, lampsOffAndWayOut, decide_eq_true_eq]

section

variable {timeUp leave : Bool}

theorem mem_lampsOffAndWayOut_iff {a : HostAct} : a ∈ lampsOffAndWayOut timeUp leave ↔
    (timeUp = true ∧ a = .lampsOff) ∨ (leave = true ∧ (a = .lampsOff ∨ a = .drain (some .idle))) := by
  simp [lampsOffAndWayOut]

theorem mem_lampsOffAndWayOut {a : HostAct} (h : a ∈ lampsOffAndWayOut timeUp leave) :
    a = .lampsOff ∨ a = .drain (some .idle) := by
  obtain ⟨_, h⟩ | ⟨_, h⟩ := mem_lampsOffAndWayOut_iff.mp h
  · exact .inl h
  · exact h

theorem lampsOff_mem_iff : .lampsOff ∈ lampsOffAndWayOut timeUp leave ↔ timeUp = true ∨ leave = true := by
  simp [mem_lampsOffAndWayOut_iff]

theorem drain_mem_iff : .drain (some .idle) ∈ lampsOffAndWayOut timeUp leave ↔ leave = true := by
  simp [mem_lampsOffAndWayOut_iff]

theorem head?_lampsOffAndWayOut (h : timeUp = true ∨ leave = true) :
    (lampsOffAndWayOut timeUp leave).head? = some .lampsOff := by
  obtain rfl | rfl := h
  · rfl
  · cases timeUp <;> rfl

theorem drain_last_of_exit (h : leave = true) :
    ∃ offs, lampsOffAndWayOut timeUp leave = offs ++ [.drain (some .idle)] ∧ ∀ a ∈ offs, a = .lampsOff := by
  subst h
  cases timeUp with
  | false => exact ⟨[.lampsOff], rfl, by simp⟩
  | true => exact ⟨[.lampsOff, .lampsOff], rfl, by simp⟩

end

/-! ### An Exposure iteration (R148, R166 to R171) -/

theorem main_of_exposure {s t : State} (h : s.hostPolls) (hctl : s.main.ctl = .exposure) (hs : step s = .next t) :
    t.main = { s.main.countHolds t.btnCur with todo := [.countdown t.btnCur] } := by
  obtain ⟨_, hmain⟩ := main_of_hostPolls h hs
  rwa [MainCtl.afterPoll_exposure _ _ hctl, currentOf_pollWord] at hmain

/-- Settles O50: the POLL, the countdown with the rule's integers for the model's `remaining`, and the lamps-off turn. -/
theorem exposureIterationTimesTheLamps : Obligations.ExposureIterationTimesTheLamps := by
  refine ⟨fun s h hctl => ?_, fun s cur rest h hr => ?_,
    fun s rest h hr => ⟨_, step_of_lampsOff h hr, rfl, rfl⟩⟩
  · obtain ⟨t, hs⟩ := exists_step_of_hostPolls h
    obtain ⟨huv, _⟩ := main_of_hostPolls h hs
    exact ⟨t, hs, huv, main_of_exposure h hctl hs⟩
  · intro isOver isExit isShown
    have hstep := step_of_countdown h hr
    rw [MainCtl.exposureLogic_eq] at hstep
    have hover : s.main.remaining s.cfg s.ms = 0 ↔ isOver := s.main.remaining_eq_zero_iff s.cfg s.ms
    have hexit : s.main.exits s.cfg s.ms cur = true ↔ isExit := by rw [MainCtl.exits_iff, hover]
    have hshown : s.main.shown s.cfg = true ↔ isShown := decide_eq_true_iff
    have hpos : 0 < s.main.remaining s.cfg s.ms ↔ ¬ isOver := by rw [Nat.pos_iff_ne_zero, Ne, hover]
    have hoff : decide (s.main.remaining s.cfg s.ms = 0) = true ∨ s.main.exits s.cfg s.ms cur = true ↔ isOver ∨ isExit := by
      rw [decide_eq_true_eq, hover, hexit]
    simp only [hshown, hpos] at hstep
    refine ⟨_, _, _, _, _, _, exec_now_nextTurn s, hstep, rfl, by simp, fun a => mem_lampsOffAndWayOut,
      fun h => head?_lampsOffAndWayOut (hoff.mpr h), lampsOff_mem_iff.trans hoff, drain_mem_iff.trans hexit,
      fun h => drain_last_of_exit (hexit.mpr h), ?_, fun h => if_pos h, fun h => if_neg h, ?_, ?_⟩
    · rw [MainCtl.remaining_toNat]
      exact s.main.remaining_cast s.cfg s.ms
    · rintro (h | h)
      · exact if_pos h
      · simp [h]
    · rintro ⟨h1, h2⟩
      simp [h1, h2]

end Sys2Proof.Machine

/-! Reset and hazards: what the reset step writes (R205, R206), the invariants at reset, and no drain with the lamps on (R216). -/

namespace Sys2Proof.Machine

/-! ### The reset step (R194, R205, R206) -/

theorem atReset_reset : AtReset State.reset :=
  ⟨rfl, rfl, rfl, rfl, rfl, rfl, rfl, rfl, rfl, rfl, rfl, rfl, rfl⟩

/-- A power cycle takes every register of R20 from `State.reset`, whatever the state before it. -/
theorem State.atReset_powerCycle (s : State) : AtReset s.powerCycle := atReset_reset

@[simp] theorem State.powerCycle_nv (s : State) : s.powerCycle.nv = s.nv := rfl

@[simp] theorem State.powerCycle_result (s : State) : s.powerCycle.result = none := rfl

@[simp] theorem State.powerCycle_main (s : State) : s.powerCycle.main = MainCtl.boot := rfl

theorem step_of_power {s : State} (h : s.tickHeld = false) (hturn : s.nextTurn.1 = .power) :
    step s = .next s.nextTurn.2.powerCycle := step_of_turn h hturn

/-- Settles O35: the power cycle is the reset step, and it copies the store. -/
theorem resetStepWritesEveryRegister : Obligations.ResetStepWritesEveryRegister :=
  ⟨atReset_reset, fun s => ⟨s.powerCycle, rfl, s.atReset_powerCycle, s.powerCycle_nv⟩⟩

/-- Settles O36: using up the turn changes neither the store nor the parameters, which are all the reset step keeps of the block. -/
theorem powerTurnIsTheResetStep : Obligations.PowerTurnIsTheResetStep := by
  intro s hheld hturn
  exact ⟨_, step_of_power hheld hturn, State.atReset_powerCycle _, (State.powerCycle_nv _).trans s.nextTurn_nv,
    (State.powerCycle_cfg _).trans s.nextTurn_cfg, State.powerCycle_result _, State.powerCycle_main _⟩

/-! ### The invariants at reset, and at a drain (R205, R216) -/

/-- Settles O38: the parameters are those the host's invariant has at reset, every register is 0 or at rest, the store lists no byte. -/
theorem resetMeetsTheBlockInvariant : Obligations.ResetMeetsTheBlockInvariant where
  params := resetMeetsTheHostInvariant.params
  ms_lt := Nat.two_pow_pos _
  fract_le := Nat.zero_le _
  enabled := rfl
  none_held := rfl
  btnT_lt := Nat.two_pow_pos _
  one_digit := rfl
  store_wf := reset_nv_wf
  store_in := List.forall_mem_nil _

/-- A drain next on a guarded list is reached with the lamps off. -/
theorem LampsInv.uv_of_drain {s : State} {into : Option Ctl} {rest : List HostAct} (h : LampsInv s)
    (htodo : s.main.todo = .drain into :: rest) : s.uv = 0b00#2 := by
  have hguard := h.guarded
  rw [htodo] at hguard
  exact bne_eq_false_iff_eq.mp (lamps_off_of_guarded_drain hguard)

/-- Settles O42: the lamps are off at reset and the boot's list turns none on; a drain next on the host's list finds them off. -/
theorem lampsInvariantAtStartAndAtDrains : Obligations.LampsInvariantAtStartAndAtDrains := by
  refine ⟨⟨rfl, fun _ => rfl, rfl⟩, fun s into h hdoes => ?_⟩
  obtain ⟨_, _, _, _, htodo⟩ := hdoes
  exact h.uv_of_drain htodo

end Sys2Proof.Machine
